-- ==== Sys2Proof/Word.lean ====
section
/-! DEFINITION. The words the 6140's interfaces carry as bits: link and MIDI bytes, converter samples, phases. -/

namespace Sys2Proof

/-- One byte of a link frame, of the MIDI line or of flash (R152, R188). -/
abbrev Byte := BitVec 8

/-- One sample as a converter delivers it: a signed 24-bit word (R17). -/
abbrev Sample24 := BitVec 24

/-- A 32-bit phase or phase increment (R16, R40). -/
abbrev Phase := BitVec 32

end Sys2Proof
end

