-- ==== Sys2Proof/Syntax.lean ====
section
/-! DEFINITION. The commands of the 6140: one constructor for each row of spec/opcode_table.json, in the table's order. -/

namespace Sys2Proof

/-- The two links that carry request frames (R188). -/
inductive Link where
  | main | foot
deriving DecidableEq, Repr

/-- A valid request frame as its link's receiver completed it (R188, R200). Its KIND is the row's own, its LEN is the
number of payload bytes, and its CHECK was right. -/
structure Frame where
  link : Link
  tag : Byte
  payload : List Byte
deriving DecidableEq, Repr

/-- One byte off a link's line, with whether its stop bit was there (R188). -/
structure RxByte where
  value : Byte
  stop : Bool
deriving DecidableEq, Repr

/-- The two directions of a lane (R9). -/
inductive Dir where
  | input | output
deriving DecidableEq, Repr

/-- The two chain buffers (R47). -/
inductive BufId where
  | a | b
deriving DecidableEq, Repr

/-- The two tuner channels (R79). -/
inductive ChanId where
  | t1 | t2
deriving DecidableEq, Repr

/-- A model table by its number: a curve 0..15 or a filter set 0..31 (R45). -/
inductive TableRef where
  | curve (index : Nat)
  | filterSet (index : Nat)
deriving DecidableEq, Repr

/-- The commands. A request row carries the frame that makes the request; an event row carries which lane, slot, record
or channel the event falls on; a line row carries what the line brings. Lanes are numbered 1..8, as the manual does. -/
inductive Instr where
  | powerOnReset
  | pinReset
  /-- A word clock period of `len` sixteenths of a microsecond ends (R11); `samples` are the converters' samples of
  input lanes 1..8, used when the period is a sample period. -/
  | wordClockPeriod (len : Nat) (samples : List Sample24)
  | noEdgeTimerExpiry
  | clockRunningNotice
  /-- An in-tolerance period while RUNNING, with the converters' samples of input lanes 1..8 (R3). -/
  | samplePeriod (samples : List Sample24)
  | laneDipSwitchPoint (dir : Dir) (lane : Nat)
  | laneDipEnd (dir : Dir) (lane : Nat)
  | relayMuteCompletion
  | silentEntry (lane : Nat)
  | blockBoundary
  | slotDipSwitchPoint (buf : BufId) (slot : Nat)
  | slotDipEnd (buf : BufId) (slot : Nat)
  | tableChangeBoundary (table : TableRef)
  | gateClose (buf : BufId) (slot : Nat)
  | trailHoldExpiry (buf : BufId) (slot : Nat)
  | trailEnd (buf : BufId) (slot : Nat)
  | busMutedNotice
  | setParam (f : Frame)
  | slotBypass (f : Frame)
  | curveLoad (f : Frame)
  | curveClear (f : Frame)
  | filterSetLoad (f : Frame)
  | filterSetClear (f : Frame)
  | ctrlMap (f : Frame)
  | pedal (f : Frame)
  | lane (f : Frame)
  | tailHoldExpiry (index : Nat)
  | tailDecayEnd (index : Nat)
  | remnantFreed (place : Nat)
  | shortRequestGrant
  | shortRequestClamp
  | markedTailCut
  | releaseCompletion
  | measurementComplete (ch : ChanId)
  | measurementTimerExpiry (ch : ChanId)
  | displayExpiry (ch : ChanId)
  | tune (f : Frame)
  | tunerRef (f : Frame)
  | tempo (f : Frame)
  | tap (f : Frame)
  | midiClock
  | followerMeasurement
  | noClockTimerExpiry
  | beatEvent
  | switchPress (f : Frame)
  | switchRelease (f : Frame)
  | holdTimerExpiry (switch : Nat)
  /-- A control change message of channel 1..16 completes (R120, R121). -/
  | controlChange (channel controller value : Nat)
  /-- A program change message of channel 1..16 completes (R120, R122). -/
  | programChange (channel program : Nat)
  /-- A byte of the MIDI line is taken by R120. The row names status bytes; a data byte has no row of its own and is
  taken here too. -/
  | midiStatusByte (byte : Byte)
  | midiFrameError
  | flags (f : Frame)
  | bind (f : Frame)
  | readBinding (f : Frame)
  | recall (f : Frame)
  | scene (f : Frame)
  | sceneApplication
  | sceneOnlyRecall
  | fadeStart
  | swap
  | midpoint
  | fadeEnd
  | save (f : Frame)
  | saveRecord (f : Frame)
  | delete (f : Frame)
  | saveSettings (f : Frame)
  | setLock (f : Frame)
  | requestBegin
  /-- A program step and its read-back complete; `matched` says whether the read-back gave what was to be programmed. -/
  | programStepComplete (matched : Bool)
  | flashReadComplete
  | eraseComplete
  | reclaimCopy
  | reclaimErase
  /-- The start-up scan completes; `failed` gives, for the marker steps the scan makes in order, which of them fail. -/
  | scanComplete (failed : List Bool)
  | readPreset (f : Frame)
  | listPresets (f : Frame)
  | supplyFall
  | supplyRise
  | supplyDropBack
  | stabilityTimerExpiry
  | windowSettleComplete
  | bypass (f : Frame)
  /-- Bytes on a link's line that end in a frame error (R188). -/
  | frameError (link : Link) (bytes : List RxByte)
  /-- Bytes on a link's line, and then 2 ms without a byte (R188). -/
  | gapTimerExpiry (link : Link) (bytes : List RxByte)
  | unknownKind (kind : Byte) (f : Frame)
  | frameSent (link : Link)
  | editOwnerTake (f : Frame)
  | editOwnerRelease (f : Frame)
  | footPermit (f : Frame)
  | subscribe (f : Frame)
  | footLinkTimerExpiry
  | setGlobal (f : Frame)
  | counters (f : Frame)
  | sampleTimerExpiry
  | status (f : Frame)
  | ident (f : Frame)
  | restart (f : Frame)
  | restartEffect
  | lockKeyLineChange (asserted : Bool)
deriving DecidableEq, Repr

end Sys2Proof
end

