-- ==== Sys2Proof/Machine/State.lean ====
section
/-! DEFINITION. Everything the 6140 holds, as plain data, and what it holds after a power-on reset. The part is a
block: it takes commands from a queue (`State.pending`), first in, first out. -/

namespace Sys2Proof.Machine

/-! ## Containers -/

/-- A table or a memory: pairs of a number and what stands there, the numbers strictly rising, with no pair equal to
what an unlisted number reads as. `Memory.lean` reads and writes it; what an unlisted number reads as is said where the
field stands in `State`. -/
abbrev Mem (α : Type) := List (Nat × α)

/-- A slew ramp: value, target and remaining count (R31). -/
structure Ramp where
  v : Int
  target : Int
  count : Nat
deriving DecidableEq, Repr

/-- A ramp that stands at a value with count 0 (R32). -/
def Ramp.at (x : Int) : Ramp := ⟨x, x, 0⟩

/-! ## Audio Port -/

/-- The states of the clock monitor (R11). -/
inductive Clock where
  | absent | settling | running
deriving DecidableEq, Repr

/-- The phase of a lane dip (R7) or of a slot dip (R44). -/
inductive DipPhase where
  | none | down | up
deriving DecidableEq, Repr

/-- What an output lane plays (R2, R4). -/
inductive Source where
  | engine | dry | tone | zero
deriving DecidableEq, Repr

/-- An input lane control record (R1). `loopback` is 0 for NONE, else the output lane 1..8. -/
structure InRec where
  trim : Nat := 8192
  inverted : Bool := false
  mute : Bool := false
  threshold : Nat := 4200
  loopback : Nat := 0
deriving DecidableEq, Repr

/-- An output lane control record (R2). -/
structure OutRec where
  source : Source := .engine
  trim : Nat := 8192
  inverted : Bool := false
  mute : Bool := false
deriving DecidableEq, Repr

/-- A silence detector: its state and its settle count 0..4,800 (R14). -/
structure Silence where
  silent : Bool := false
  count : Nat := 0
deriving DecidableEq, Repr

/-- An input lane: its record, the polarity and loopback source in effect, the changes pending for the switch point,
its gain ramp and dip phase (R6, R7), and its silence detector (R14). -/
structure InLane where
  cfg : InRec := {}
  inverted : Bool := false
  loopback : Nat := 0
  gain : Ramp := Ramp.at 8192
  dip : DipPhase := .none
  pendInverted : Option Bool := none
  pendLoopback : Option Nat := none
  silence : Silence := {}
deriving DecidableEq, Repr

/-- An output lane: its record, the polarity and effective source (R4), the pending changes, its gain ramp and dip
phase, and the final sample of the previous sample period (R5). -/
structure OutLane where
  cfg : OutRec := {}
  inverted : Bool := false
  source : Source := .engine
  gain : Ramp := Ramp.at 8192
  dip : DipPhase := .none
  pendInverted : Option Bool := none
  pendSource : Option Source := none
  prev : Int := 0
deriving DecidableEq, Repr

/-- The Audio Port (chapter 1). Unlisted input and output lanes 1..8 read as `InLane` and `OutLane` with their
defaults. -/
structure Aup where
  clock : Clock := .absent
  settle : Nat := 0
  noEdgeTimer : Bool := false
  inLanes : Mem InLane := []
  outLanes : Mem OutLane :=
    [(6, { cfg := { source := .zero }, source := .zero }),
     (7, { cfg := { source := .zero }, source := .zero }),
     (8, { cfg := { source := .zero }, source := .zero })]
  override : Bool := false
  relayMute : Ramp := Ramp.at 8192
  /-- A completion of the relay-mute gain is owed to the Accessory Driver (R10). -/
  relayOwed : Bool := false
  tonePhase : Phase := 0
  toneInc : Phase := 39370533
deriving DecidableEq, Repr

/-! ## Tone Engine -/

/-- The eleven slot kinds (R36). -/
inductive Kind where
  | trim | gate | drive | amp | cab | eq | mod | delay | reverb | loop | level
deriving DecidableEq, Repr

/-- The input selection of a chain (R35). -/
inductive InputSel where
  | lane1 | lane2 | sum
deriving DecidableEq, Repr

/-- A relay set: loop relays IN, bit k − 1 for relay k, and amp lines CLOSED, bit k − 1 for line k (R176, R201). -/
structure RelaySet where
  loops : BitVec 8 := 0
  amps : BitVec 4 := 0
deriving DecidableEq, Repr

/-- A scene override: slot, parameter index, value (R49). -/
structure Override where
  slot : Nat
  param : Nat
  value : Int
deriving DecidableEq, Repr

/-- A scene record (R49); bit s of the bypass set names slot s (R201). -/
structure Scene where
  bypass : BitVec 16 := 0
  overrides : List Override := []
  relays : Option RelaySet := none
  ramp : Nat := 512
deriving DecidableEq, Repr

/-- The bypass state of a slot (R50). -/
inductive Bypass where
  | engaged | bypassed | trailing
deriving DecidableEq, Repr

/-- A discrete change on a slot's pending list: a D-class parameter's new value, or a table change (R44). -/
inductive SlotChange where
  | param (index : Nat) (value : Int)
  | table (table : TableRef)
deriving DecidableEq, Repr

/-- The four history values of a biquad section (R26). -/
structure Hist where
  x1 : Int := 0
  x2 : Int := 0
  y1 : Int := 0
  y2 : Int := 0
deriving DecidableEq, Repr

/-- The part of a slot's runtime state that a tail takes with it (R70). What `a` and `b` hold depends on the kind:
TRIM a gain; GATE a threshold, b gate gain; DRIVE and AMP a drive, b level; CAB, EQ and LEVEL b level; MOD a rate,
b depth; DELAY a delay, b feedback; REVERB b comb gain; LOOP a send, b return (R33, R36). `dry`, `wet` and `input` are
the mix gains and the line input gain (R41, R42); `region` the region id (R62); `pos` the write position of each line
(R28). -/
structure Voice where
  a : Ramp := Ramp.at 0
  b : Ramp := Ramp.at 0
  dry : Ramp := Ramp.at 0
  wet : Ramp := Ramp.at 0
  input : Ramp := Ramp.at 8192
  region : Option Nat := none
  pos : List Nat := []
deriving DecidableEq, Repr

/-- A slot: kind, flags, parameter set and runtime state (R36, R47). -/
structure Slot where
  kind : Kind
  defBypass : Bool := false
  spill : Bool := false
  trail : Bool := false
  params : List Int := []
  /-- Running parameter values, by index. -/
  run : List Int := []
  voice : Voice := {}
  dip : Ramp := Ramp.at 8192
  dipPhase : DipPhase := .none
  changes : List SlotChange := []
  engage : Ramp := Ramp.at 8192
  bypass : Bypass := .engaged
  /-- The hold count of a TRAILING slot (R50). -/
  hold : Nat := 0
  /-- The wet gain of a TRAILING slot is falling, its hold having run out (R50). -/
  falling : Bool := false
  /-- A change of mix has arrived while the slot was TRAILING or BYPASSED, and the engage is to take it up (R50). -/
  mixStored : Bool := false
  thru : Bool := false
  /-- The histories of the filter set's sections; a section with no entry has histories 0 (R27). -/
  hist : List Hist := []
  gateOpen : Bool := true
  quiet : Nat := 0
  lfo : Phase := 0
  /-- The slot has been detached and this is its stub (R72). -/
  stub : Bool := false
deriving DecidableEq, Repr

/-- The states of a chain buffer (R47). -/
inductive BufState where
  | empty | loading | ready | active | outgoing
deriving DecidableEq, Repr

/-- A chain record (R47). Its cost is computed from the slots (R59). -/
structure Chain where
  preset : Nat := 0
  gen : Nat := 0
  name : List Byte := []
  input : InputSel := .lane1
  fadeLen : Nat := 0
  tempo : Option Nat := none
  quantize : Bool := false
  relays : Option RelaySet := none
  slots : List Slot := []
  scenes : List Scene := [{}]
  scene : Nat := 0
  edited : Bool := false
  fade : Ramp := Ramp.at 0
deriving DecidableEq, Repr

/-- A chain buffer. `saving` holds while a SAVE whose image was taken from this buffer is being written and the buffer
has not entered EMPTY since; `editedSince` while an edit has reached it since that image was taken (R54, R163). -/
structure Buffer where
  state : BufState := .empty
  chain : Chain := {}
  saving : Bool := false
  editedSince : Bool := false
deriving DecidableEq, Repr

/-- The coefficients of a biquad section (R26). -/
structure Biquad where
  b0 : Int
  b1 : Int
  b2 : Int
  a1 : Int
  a2 : Int
deriving DecidableEq, Repr

/-- A curve: current contents, incoming contents (absent contents may wait too), the samples left of a table change
that has started (R46), and the load record (R45); a staging entry that nothing has written is 0 (DESIGN CHOICE, log 49). -/
structure Curve where
  current : Option (List Int) := none
  incoming : Option (Option (List Int)) := none
  left : Option Nat := none
  staging : Mem Int := []
  written : List Nat := []
deriving DecidableEq, Repr

/-- A filter set: current contents, incoming contents and the samples left of a table change (R45, R46). -/
structure FilterSet where
  current : Option (List Biquad) := none
  incoming : Option (Option (List Biquad)) := none
  left : Option Nat := none
deriving DecidableEq, Repr

/-- The source of a controller map entry (R55). -/
inductive MapSource where
  | p0 | p1 | cc (n : Nat)
deriving DecidableEq, Repr

/-- A controller map entry (R55). -/
structure MapEntry where
  source : MapSource
  kind : Kind
  occ : Nat
  param : Nat
  min : Int
  max : Int
deriving DecidableEq, Repr

/-- The output bus mute set (R58). -/
structure MuteSet where
  tune : Bool := false
  bypass : Bool := false
  start : Bool := false
  clock : Bool := false
deriving DecidableEq, Repr

/-- The phase of a tail record (R69). -/
inductive TailPhase where
  | ringing | decay
deriving DecidableEq, Repr

/-- A tail record (R69); its age is its place in the tail set. `expired` says that a sample was processed with hold
count 0 (R73); `counted` that a budget release counts it (R76); `source` is the stub it was detached from, while that
stub's buffer is not EMPTY (R73). -/
structure Tail where
  index : Nat
  preset : Nat
  kind : Kind
  voice : Voice
  hold : Nat
  phase : TailPhase
  expired : Bool := false
  marked : Bool := false
  counted : Bool := false
  source : Option (BufId × Nat) := none
deriving DecidableEq, Repr

/-- A remnant (R74): its fade gain is the `wet` ramp of its voice, and its phase is CUT. -/
structure Remnant where
  kind : Kind
  voice : Voice
  counted : Bool := false
deriving DecidableEq, Repr

/-- The Tone Engine and its tail set (chapters 3 and 4). Unlisted curves and filter sets are absent, unlisted map
entries NONE, unlisted source values ABSENT (`sources` holds CC n at n, P0 at 120 and P1 at 121), unlisted remnant
places empty. -/
structure Tne where
  bufA : Buffer := {}
  bufB : Buffer := {}
  curves : Mem Curve := []
  filters : Mem FilterSet := []
  ctrlMap : Mem (Option MapEntry) := []
  sources : Mem (Option Nat) := []
  mute : MuteSet := { start := true }
  muteRamp : Ramp := Ramp.at 0
  /-- A bus-muted notice is owed to the Accessory Driver (R58). -/
  busNotice : Bool := false
  /-- Sample periods of the current block, 0..31 (R35). -/
  blockPos : Nat := 0
  /-- The boundary that ended the block before has not been taken yet. -/
  boundaryDue : Bool := false
  /-- A saturation in the ACTIVE chain changed a value in this block (R20). -/
  blockClip : Bool := false
  /-- The load of the current block (R59). -/
  load : Nat := 0
  tails : List Tail := []
  remnants : Mem (Option Remnant) := []
  /-- A budget release is waiting for its completion (R76). -/
  release : Bool := false
deriving DecidableEq, Repr

/-! ## Line Memory Allocator -/

/-- The owner of a region (R62). -/
inductive Owner where
  | slot (buf : BufId) (index : Nat)
  | tail (index : Nat)
  | remnant (place : Nat)
deriving DecidableEq, Repr

/-- A region record (R62); its id is its number in the region table, its granted length 1024 samples a page. -/
structure Region where
  owner : Owner
  pages : List Nat
deriving DecidableEq, Repr

/-- A page request of a build: its slot and the pages it asks for (R64). -/
structure PageReq where
  slot : Nat
  pages : Nat
deriving DecidableEq, Repr

/-- The Line Memory Allocator (chapter 4). `mem` holds sample o of page p at 1024 p + o; an unlisted sample is 0.
`requests` is the request list being served, absent when no build has one. -/
structure Lma where
  mem : Mem Int := []
  free : List Nat := List.range 256
  regions : Mem (Option Region) := []
  requests : Option (List PageReq) := none
deriving DecidableEq, Repr

/-! ## Tuner Unit -/

/-- The lock machine of a tuner channel (R88, R89, R90). Notes are 0..71, C1 to B6. The window holds the recent
results in LOCKED, oldest first, `true` for a HIT. -/
inductive LockState where
  | search
  | acquire (note : Nat) (count : Nat) (prev : Int)
  | locked (note : Nat) (shown : Int) (window : List Bool)
deriving DecidableEq, Repr

/-- The display record of a channel (R92); HELD has its expiry timer running. -/
inductive Display where
  | absent
  | live (note : Nat) (cents : Int)
  | held (note : Nat) (cents : Int)
deriving DecidableEq, Repr

/-- A tuner channel (R79 to R92). `first` and `count` are the crossing record; `span` is the span of a measurement
whose ninth crossing has been found. -/
structure Channel where
  y : Int := 0
  n : Nat := 0
  armed : Bool := false
  yPrev : Int := 0
  record : Option (Int × Nat) := none
  span : Option Int := none
  timer : Bool := true
  lock : LockState := .search
  display : Display := .absent
deriving DecidableEq, Repr

/-- The tuner channel field of the tune mode record (R93). -/
inductive TuneChannel where
  | t1 | t2 | follow
deriving DecidableEq, Repr

/-- The policy of the tune mode record (R93). -/
inductive Policy where
  | mute | dry | live
deriving DecidableEq, Repr

/-- The tune mode record (R93). -/
structure TuneMode where
  on : Bool := false
  channel : TuneChannel := .follow
  policy : Policy := .mute
  exitOnRecall : Bool := false
deriving DecidableEq, Repr

/-- The Tuner Unit (chapter 5). The note table is a function of the reference (R86). -/
structure Tun where
  t1 : Channel := {}
  t2 : Channel := {}
  ref : Nat := 4400
  window : Nat := 4
  mode : TuneMode := {}
deriving DecidableEq, Repr

/-! ## Tempo Unit -/

/-- The state of the MIDI clock follower (R105). -/
inductive FollowState where
  | noClock | search | locked
deriving DecidableEq, Repr

/-- Where the tempo in use comes from (R112). -/
inductive TempoFrom where
  | internal | midi | held
deriving DecidableEq, Repr

/-- The MIDI clock follower (R105). A deviant is `true` in the history, newest last. -/
structure Follower where
  state : FollowState := .noClock
  start : Option Nat := none
  count : Nat := 0
  m1 : Option Nat := none
  b : Nat := 24000
  history : List Bool := []
  timer : Bool := false
deriving DecidableEq, Repr

/-- The Tempo Unit (chapter 6). -/
structure Tmp where
  internal : Nat := 1200
  midiSource : Bool := false
  presetSets : Bool := false
  heldTempo : Nat := 1200
  heldBeat : Nat := 24000
  tempo : Nat := 1200
  beat : Nat := 24000
  sampleNo : Nat := 0
  lastTap : Option Nat := none
  intervals : List Nat := []
  follower : Follower := {}
  beatCount : Nat := 0
  /-- The count has reached the beat length in use in a sample period, and the beat event has not been given. -/
  beatDue : Bool := false
deriving DecidableEq, Repr

/-! ## Switch Controller -/

/-- A switch gesture (R123). -/
inductive Gesture where
  | press | release | hold
deriving DecidableEq, Repr

/-- The trigger of a binding record (R123). -/
inductive Trigger where
  | none
  | foot (switch : Nat) (gesture : Gesture)
  | panel (switch : Nat) (gesture : Gesture)
  | midiPc (program : Nat)
  | midiCc (controller threshold : Nat)
deriving DecidableEq, Repr

/-- ON, OFF or TOGGLE (R202). -/
inductive OnOff where
  | on | off | toggle
deriving DecidableEq, Repr

/-- SET, CLEAR or TOGGLE (R202). -/
inductive FlagOp where
  | set | clear | toggle
deriving DecidableEq, Repr

/-- The operation of a BANK action (R125). -/
inductive BankOp where
  | up | down | set (bank : Nat)
deriving DecidableEq, Repr

/-- The actions of R125. -/
inductive Action where
  | none
  | recall (preset scene : Nat)
  | recallBank (slot scene : Nat)
  | scene (scene : Nat)
  | flip (preset0 scene0 preset1 scene1 : Nat)
  | momentary (preset scene : Nat)
  | ret
  | slotToggle (kind : Kind) (occ : Nat)
  | bank (op : BankOp)
  | tap
  | tune (op : OnOff)
  | flag (op : FlagOp) (mask : Byte)
  | bypass (op : OnOff)
deriving DecidableEq, Repr

/-- A binding record (R123), less its FLIP pointer and in-flight list. The condition names a flag and a value. -/
structure Binding where
  trigger : Trigger := .none
  cond : Option (Nat × Bool) := none
  action : Action := .none
  report : Bool := false
deriving DecidableEq, Repr

/-- The FLIP pointer of a binding and the firings in flight, each under a number of the model's own (R123, R128). -/
structure Flip where
  pointer : Bool := false
  inFlight : List Nat := []
deriving DecidableEq, Repr

/-- The hold timer of a switch (R114). -/
inductive HoldTimer where
  | idle | running | expired
deriving DecidableEq, Repr

/-- An entry of the held-switch table (R114). -/
structure SwitchEntry where
  down : Bool := false
  /-- The reading of the internal timebase in ms at the press. -/
  pressedAt : Option Nat := none
  deferred : Bool := false
  timer : HoldTimer := .idle
  momentary : Nat := 0
deriving DecidableEq, Repr

/-- The default binding records, indices 0..11 (R123). -/
def defaultBindings : Mem Binding :=
  [(0, { trigger := .foot 0 .press, action := .recallBank 0 0 }),
   (1, { trigger := .foot 1 .press, action := .recallBank 1 0 }),
   (2, { trigger := .foot 2 .press, action := .recallBank 2 0 }),
   (3, { trigger := .foot 3 .press, action := .recallBank 3 0 }),
   (4, { trigger := .foot 4 .press, action := .recallBank 4 0 }),
   (5, { trigger := .foot 5 .press, action := .recallBank 5 0 }),
   (6, { trigger := .foot 6 .press, action := .recallBank 6 0 }),
   (7, { trigger := .foot 7 .press, action := .recallBank 7 0 }),
   (8, { trigger := .foot 8 .press, action := .bank .down, report := true }),
   (9, { trigger := .foot 9 .press, action := .bank .up, report := true }),
   (10, { trigger := .foot 10 .press, action := .tune .toggle }),
   (11, { trigger := .foot 11 .press, action := .tap })]

/-- The Switch Controller (chapter 7). Unlisted bindings have trigger NONE, unlisted switches are UP, unlisted previous
controller values are 0. The return stack is newest first; a preset NONE is `none`. Bit k of `flags` is Fk. -/
structure Swc where
  bindings : Mem Binding := defaultBindings
  flips : Mem Flip := []
  flags : Byte := 0
  stack : List (Option Nat × Nat) := []
  bank : Nat := 0
  switches : Mem SwitchEntry := []
  holdTime : Nat := 600
  /-- MIDI receive channel 1..16; `none` is OMNI (R119). -/
  channel : Option Nat := none
  directMap : Bool := false
  running : Option Byte := none
  gathered : List Byte := []
  discard : Bool := false
  ccPrev : Mem Nat := []
  bankSelect : Nat := 0
  /-- The number the next FLIP firing takes (the model's own). -/
  nextFiring : Nat := 0
deriving DecidableEq, Repr

/-! ## Links: result codes and destinations -/

/-- The result codes (R189). -/
inductive Code where
  | ok | busy | notReady | notFound | notOwner | notPermitted | locked | lockHeld
  | storeFull | storeFault | overBudget | badField | badLength | unknownKind | superseded
deriving DecidableEq, Repr

/-- Where a reply goes: the link and the number of its reply queue entry. -/
structure Dest where
  link : Link
  id : Nat
deriving DecidableEq, Repr

/-! ## Recall Unit -/

/-- What popped the return stack: a RETURN action's binding, or the release of a switch (R130). -/
inductive PopBy where
  | binding (index : Nat)
  | switch (number : Nat)
deriving DecidableEq, Repr

/-- The origin of a recall or of a SCENE request (R127, R147). -/
inductive Origin where
  | link (link : Link) (tag : Byte)
  | binding (index : Nat)
  | directMap
  | momentary (index : Nat)
  | ret (by_ : PopBy)
  | flip (index firing : Nat)
  | boot
deriving DecidableEq, Repr

/-- What RECALL_DONE says of a recall (R147). -/
inductive DoneKind where
  | full | sceneOnly | empty
deriving DecidableEq, Repr

/-- A SCENE request that joined a recall: its destination and the target scene the recall had before it (R142). -/
structure Joined where
  dest : Option Dest
  before : Nat
deriving DecidableEq, Repr

/-- A recall request (R133, R134). `quant` is `none` for PRESET. The notes are those of R200's note byte. -/
structure Recall where
  preset : Nat
  scene : Nat
  quant : Option Bool := none
  fade : Option Nat := none
  origin : Origin
  dest : Option Dest := none
  joined : Option Joined := none
  boot : Bool := false
  kind : DoneKind := .full
  notes : Byte := 0
deriving DecidableEq, Repr

/-- The states of the Recall Unit (R133). -/
inductive RcuState where
  | idle | fetching | loading | relays | armed | fading
deriving DecidableEq, Repr

/-- Work taken in IDLE that waits for the next block boundary (R135, R136). -/
inductive BoundaryItem where
  | scene (scene : Nat) (origin : Origin) (dest : Option Dest)
  | sceneOnly (r : Recall)
deriving DecidableEq, Repr

/-- The current identity (R132). -/
structure Identity where
  preset : Option Nat := none
  scene : Nat := 0
  gen : Nat := 0
  edited : Bool := false
deriving DecidableEq, Repr

/-- The Recall Unit (chapter 8). -/
structure Rcu where
  ident : Identity := {}
  state : RcuState := .idle
  flight : Option Recall := none
  pending : Option Recall := none
  bootDue : Bool := true
  /-- The live boot preset (R196). -/
  bootPreset : Nat := 0
  /-- SCENE requests and scene-only recalls that wait for the block boundary, in the order taken. -/
  waiting : List BoundaryItem := []
  /-- The buffer the recall in flight is built in. -/
  build : BufId := .a
  /-- The read of the recall in flight, numbered so that the answer to an older read is known (R141). -/
  readNo : Nat := 0
  /-- The relay set handed over last and waited for in RELAYS (R139). -/
  ticket : Nat := 0
  /-- The unit enters FADING at the next block boundary (R138). -/
  fadeDue : Bool := false
  swapped : Bool := false
  dip : Bool := false
  /-- A SCENE joined after the swap is applied at the next block boundary (R142). -/
  joinedDue : Bool := false
deriving DecidableEq, Repr

/-! ## Preset Store -/

/-- The states of a sector (R156). -/
inductive SecState where
  | erased | opened | full | reclaim
deriving DecidableEq, Repr

/-- An entry of the sector table (R156). -/
structure Sector where
  state : SecState := .erased
  live : Nat := 0
  dead : Nat := 0
  next : Nat := 0
deriving DecidableEq, Repr

/-- The record kinds (R154). -/
inductive RecKind where
  | preset | globals | bindings
deriving DecidableEq, Repr

/-- A directory entry (R157). -/
structure DirEntry where
  sector : Nat
  off : Nat
  gen : Nat
  len : Nat
deriving DecidableEq, Repr

/-- The lock range (R161); `size` is the code 0 for NONE, 1..6 for 8, 16, 32, 64, 128, 256 (R202). -/
structure LockRange where
  bottom : Bool := false
  size : Nat := 0
  complement : Bool := false
deriving DecidableEq, Repr

/-- The kinds of store request with their fields (R159). Code fields stand as they were sent: they are checked when the
request begins (R160). -/
inductive StoreOp where
  | save (preset : Nat) (named : Byte) (name : List Byte)
  | saveRecord (preset : Nat) (image : List Byte)
  | delete (preset : Nat)
  | saveSettings
  | setLock (position size complement settings : Byte)
deriving DecidableEq, Repr

/-- A queued store request; `held` says it has been held back for a sector (R162). -/
structure StoreReq where
  op : StoreOp
  dest : Option Dest
  held : Bool := false
deriving DecidableEq, Repr

/-- The steps of a record write (R162), with the step that kills a record whose VALID marker failed (R168). -/
inductive WriteStep where
  | header
  | body (done : Nat)
  | valid
  | supersede (old : DirEntry)
  | kill
deriving DecidableEq, Repr

/-- A record write in progress (R162): directory key (0..255 PRESET, 256 GLOBALS, 257 BINDINGS), body, place, generation and
the step now being programmed. -/
structure Writer where
  key : Nat
  body : List Byte
  sector : Nat
  off : Nat
  gen : Nat
  step : WriteStep
deriving DecidableEq, Repr

/-- The request in progress: SET_LOCK reading GLOBALS, a DELETE, or a write with the records still to come. -/
inductive Job where
  | readGlobals
  | deleting (key : Nat) (old : DirEntry)
  | writing (writer : Writer) (rest : List (Nat × List Byte)) (clamped : Bool)
deriving DecidableEq, Repr

/-- Who asked for a read (R153, R158, R167, R170). -/
inductive Reader where
  | recall (readNo : Nat)
  | link (dest : Dest)
  | job
  | copy
deriving DecidableEq, Repr

/-- A read that waits for the arbiter (R158). -/
structure ReadReq where
  reader : Reader
  preset : Nat
deriving DecidableEq, Repr

/-- The flash operation in progress (R152). -/
inductive FlashOp where
  | read (reader : Reader) (entry : DirEntry)
  | program (addr : Nat) (data : List Byte)
  | erase (sector : Nat)
deriving DecidableEq, Repr

/-- A reclaim copy in progress (R170): the record's key and place, and its write once the record has been read. -/
structure Copy where
  key : Nat
  entry : DirEntry
  writer : Option Writer := none
deriving DecidableEq, Repr

/-- A reclaim in progress (R169). -/
structure Reclaim where
  victim : Nat
  copy : Option Copy := none
deriving DecidableEq, Repr

/-- The Preset Store (chapter 9). `flash` holds byte o of sector s at 4096 s + o; an unlisted byte reads 0xFF, erased.
Unlisted sectors are ERASED, unlisted directory entries absent. -/
structure Pst where
  flash : Mem Byte := []
  scanning : Bool := true
  sectors : Mem Sector := []
  dir : Mem (Option DirEntry) := []
  nextGen : Nat := 1
  queue : List StoreReq := []
  job : Option Job := none
  reads : List ReadReq := []
  op : Option FlashOp := none
  /-- The sector of a suspended erase (R153). -/
  suspended : Option Nat := none
  reclaim : Option Reclaim := none
  lock : LockRange := {}
  settingsLock : Bool := false
  /-- The LOCK key line (an input pin). -/
  lockKey : Bool := false
deriving DecidableEq, Repr

/-! ## Accessory Driver -/

/-- Relay states waiting for a switch step: for the relays and lines in the masks, the states they take. -/
structure Changes where
  loopMask : BitVec 8 := 0
  loops : BitVec 8 := 0
  ampMask : BitVec 4 := 0
  amps : BitVec 4 := 0
deriving DecidableEq, Repr

/-- The phase of a mute window (R178). -/
inductive WindowPhase where
  | down | settle | up
deriving DecidableEq, Repr

/-- A window record (R178) with the relay completions owed at its end, each by the number of its handed set (R179). R178 sets the settle count
to 0 at the switch step; a window in DOWN has it at 0 as well (DESIGN CHOICE, log 84). -/
structure Window where
  phase : WindowPhase := .down
  pending : Changes := {}
  restoration : Bool := false
  settle : Nat := 0
  owed : List Nat := []
deriving DecidableEq, Repr

/-- The next set (R177, R183). -/
structure NextSet where
  changes : Changes := {}
  restoration : Bool := false
  owed : List Nat := []
deriving DecidableEq, Repr

/-- The bypass condition set (R184). -/
structure Conds where
  clockDown : Bool := true
  scanning : Bool := true
  supplyLow : Bool := true
  manual : Bool := false
  starting : Bool := true
deriving DecidableEq, Repr

/-- The phase of the bypass relay (R185). -/
inductive RelayPhase where
  | circuit | muting | out
deriving DecidableEq, Repr

/-- Where the relay supply stands against the thresholds 10.8 V and 11.4 V (R182; an input pin). -/
inductive Supply where
  | below | between | above
deriving DecidableEq, Repr

/-- The Accessory Driver (chapter 10). -/
structure Acd where
  requested : RelaySet := {}
  switched : RelaySet := {}
  drive : Bool := false
  window : Option Window := none
  next : NextSet := {}
  /-- The number the next handed set takes (the model's own). -/
  nextTicket : Nat := 0
  supplyGood : Bool := false
  stability : Bool := false
  supply : Supply := .below
  conds : Conds := {}
  relay : RelayPhase := .out
  manual : Bool := false
deriving DecidableEq, Repr

/-! ## Link Controller: reports and replies -/

/-- The report classes (R194). -/
inductive ReportClass where
  | recall | tuner | tempo | level | system | binding
deriving DecidableEq, Repr

/-- The lock state a tuner report carries (R98). -/
inductive LockTag where
  | search | acquire | locked
deriving DecidableEq, Repr

/-- Why the clock monitor left RUNNING (R11). -/
inductive ClockReason where
  | rate | noEdge
deriving DecidableEq, Repr

/-- Why the follower left LOCKED (R106). -/
inductive UnlockReason where
  | deviant | noClock
deriving DecidableEq, Repr

/-- The edit owner (R191). -/
inductive EditOwner where
  | none | main | foot
deriving DecidableEq, Repr

/-- Why the owner changed (R191). -/
inductive OwnerCause where
  | take | release | displaced | linkDown | permitOff
deriving DecidableEq, Repr

/-- What BINDING_FIRED carries beside index, trigger and action kind (R124). -/
inductive FiredExtra where
  | none | bank (bank : Nat) | flags (flags : Byte) | pointer (p : Bool)
deriving DecidableEq, Repr

/-- Why a binding failed (R125, R127). -/
inductive FailReason where
  | noTarget | code (c : Code)
deriving DecidableEq, Repr

/-- What SCAN_DONE carries (R175). -/
structure ScanResult where
  presets : Nat := 0
  globals : Bool := false
  bindings : Bool := false
  dead : Nat := 0
  duplicates : Nat := 0
  badSectors : Nat := 0
  fieldsMended : Nat := 0
  live : Nat := 0
  erased : Nat := 0
  nextGen : Nat := 1
deriving DecidableEq, Repr

/-- The reports of R194's table, with the fields their rules name. -/
inductive Report where
  | recallDone (preset scene gen : Nat) (kind : DoneKind) (origin : Origin) (notes : Byte)
  | recallFailed (preset : Option Nat) (scene : Nat) (code : Code) (origin : Origin)
  | sceneDone (scene : Nat) (origin : Origin)
  | tunerReading (ch : ChanId) (span : Int) (valid : Option (Nat × Int)) (lock : LockTag) (display : Display)
  | tunerLock (ch : ChanId) (lock : LockTag) (display : Display)
  | tempoLock (state : FollowState) (reason : Option UnlockReason) (b tempo : Nat)
  | tempoValue (tempo beat : Nat) (source : TempoFrom)
  | tapIgnored
  | silence (lane : Nat) (silent : Bool)
  | counterOverflow (counter : Nat)
  | clockState (state : Clock) (reason : Option ClockReason)
  | bypassState (energized : Bool) (phase : RelayPhase) (conds : Conds) (manual : Bool)
  | supplyState (good : Bool)
  | scanDone (result : ScanResult)
  | storeFault (sector off : Nat) (step : WriteStep)
  | linkState (up : Bool)
  | owner (owner : EditOwner) (cause : OwnerCause)
  | bindingFired (index : Nat) (trigger : Trigger) (action : Nat) (extra : FiredExtra)
  | bindingFailed (index : Nat) (reason : FailReason)
  | stackFull (index : Nat)
  | stackEmpty (by_ : PopBy)
  | reportsDropped (count : Nat)
deriving DecidableEq, Repr

/-- How a tap was taken (R103). -/
inductive TapOutcome where
  | ignored | cleared | first | newSeries | invalid | added | dropped
deriving DecidableEq, Repr

/-- A slot as STATUS shows it (R37, R47). -/
structure SlotStatus where
  kind : Kind
  bypass : Bypass
  thru : Bool
deriving DecidableEq, Repr

/-- A tail record as STATUS shows it (R69). -/
structure TailStatus where
  index : Nat
  kind : Kind
  preset : Nat
  phase : TailPhase
  marked : Bool
  holdMs : Nat
deriving DecidableEq, Repr

/-- A tuner channel as STATUS shows it (R99). -/
structure ChannelStatus where
  lock : LockState
  display : Display
  silent : Bool
deriving DecidableEq, Repr

/-- A held-switch entry as STATUS shows it, with the ms a DOWN switch has been held (R114). -/
structure SwitchStatus where
  entry : SwitchEntry
  heldMs : Option Nat
deriving DecidableEq, Repr

/-- A link's part of the STATUS LINKS reply (R197). -/
structure LinkStatus where
  subs : Byte
  replies : Nat
  reports : Nat
  drops : Nat
  staging : Option (Nat × List Byte)
deriving DecidableEq, Repr

/-- What the chapters say STATUS shows, part by part (R197). -/
inductive StatusData where
  | audio (clock : Clock) (silent : List Bool)
  | engine (buffers : List (BufState × Nat × Nat)) (scene : Option Nat) (edited : Option Bool)
      (slots : List SlotStatus) (mute : MuteSet) (muteGain : Int) (load : Nat)
  | tails (free : Nat) (requests : Option (Option Nat)) (tails : List TailStatus) (remnants : Nat)
  | tuner (t1 t2 : ChannelStatus) (ref window : Nat) (mode : TuneMode) (selected : ChanId)
  | tempo (internal : Nat) (midi presetSets : Bool) (tempo beat heldTempo heldBeat : Nat) (source : TempoFrom)
      (intervals : List Nat) (state : FollowState) (b deviants beatCount : Nat)
  | switch (entries : List SwitchStatus) (flags : Byte) (bank bankSelect : Nat)
  | recall (state : RcuState) (target : Option (Nat × Nat)) (pending : Option Recall) (ident : Identity)
  | store (erased : Nat) (opened : Option (Nat × Nat)) (live dead queue : Nat) (head : Option StoreOp)
      (lock : LockRange) (settingsLock lockKey : Bool) (reclaim : Option (Nat × Nat))
  | accessory (requested switched : RelaySet) (drive : Bool) (window : Option (WindowPhase × Changes × Bool))
      (next : NextSet) (supplyGood energized : Bool) (relay : RelayPhase) (conds : Conds) (manual : Bool)
  | links (owner : EditOwner) (footPermit footUp : Bool) (run : Nat) (main foot : LinkStatus) (sampleMode : Bool)
deriving DecidableEq, Repr

/-- The data of a reply, as the request's rule names them. -/
inductive ReplyData where
  | none
  | bytes (data : List Byte)
  | curve (loaded incoming : Bool) (written : Nat)
  | filterSet (loaded incoming : Bool)
  | tune (mode : TuneMode)
  | tempo (internal : Nat) (midi : Bool) (state : FollowState) (tempo : Nat)
  | tap (outcome : TapOutcome) (intervals tempo : Nat)
  | switch (taken down : Bool)
  | flags (flags : Byte)
  | bypass (manual : Bool) (phase : RelayPhase) (conds : Conds)
  | saved (preset gen : Nat)
  | written (gen : Nat)
  | staged (bytes : Nat)
  | owner (owner : EditOwner)
  | permit (on : Bool) (owner : EditOwner)
  | classes (subs : Byte)
  | counters (snapshot : Bool) (values : List Nat)
  | ident (vendor part revision inputs outputs pages presets : Nat)
  | status (data : StatusData)
deriving DecidableEq, Repr

/-- A finished reply: when it became DONE among the link's replies, result code, notes (R200), data. -/
structure Reply where
  seq : Nat
  code : Code
  notes : Byte
  data : ReplyData
deriving DecidableEq, Repr

/-- An entry of a reply queue: PENDING while `reply` is `none`, then DONE (R190). `restart` marks the reply whose last
byte lets a RESTART take effect (R199). -/
structure ReplyEntry where
  id : Nat
  tag : Byte
  restart : Bool := false
  reply : Option Reply := none
deriving DecidableEq, Repr

/-- What a transmitter is sending: a reply, with whether its second frame is still to come, or a report (R190). -/
inductive TxFrame where
  | reply (id : Nat) (more : Bool)
  | report (r : Report)
deriving DecidableEq, Repr

/-- The queues and the transmitter of a link (R190, R194); bit k of `subs` is class k of R202. -/
structure LinkIo where
  entries : List ReplyEntry := []
  nextId : Nat := 0
  nextSeq : Nat := 0
  tx : Option TxFrame := none
  reports : List Report := []
  drops : Nat := 0
  subs : Byte
deriving DecidableEq, Repr

/-- The state of a link's receiver, with the bytes of the frame held so far (R188). -/
inductive Receiver where
  | hunt
  | header (bytes : List Byte)
  | body (len : Nat) (kind tag : Byte) (bytes : List Byte)
deriving DecidableEq, Repr

/-- The Link Controller (chapter 11). Counters are numbered in the order of R195's table: input clip 0..7, output clip
8..15, chain saturation 16, frame errors of main, foot and MIDI 17..19, link event errors 20, store faults 21; an
unlisted counter is 0. -/
structure Lkc where
  main : LinkIo := { subs := 0x3F }
  foot : LinkIo := { subs := 0x27 }
  rxMain : Receiver := .hunt
  rxFoot : Receiver := .hunt
  owner : EditOwner := .none
  footPermit : Bool := false
  footUp : Bool := false
  footRun : Nat := 0
  footTimer : Bool := false
  counters : Mem Nat := []
  snapshot : Mem Nat := []
  sampleMode : Bool := false
  stageMain : Option (Nat × List Byte) := none
  stageFoot : Option (Nat × List Byte) := none
  /-- RESTARTs whose replies have been sent and which have not taken effect (R199). -/
  restartDue : Nat := 0
deriving DecidableEq, Repr

/-! ## The machine -/

/-- The whole state of the 6140. `timebase` counts the ticks of the internal 1 MHz timebase; `free` numbers the free
values taken so far (the model's own); `pending` is the queue of waiting commands, first in, first out. -/
structure State where
  aup : Aup := {}
  tne : Tne := {}
  lma : Lma := {}
  tun : Tun := {}
  tmp : Tmp := {}
  swc : Swc := {}
  rcu : Rcu := {}
  pst : Pst := {}
  acd : Acd := {}
  lkc : Lkc := {}
  timebase : Nat := 0
  free : Nat := 0
  pending : List Instr := []
deriving DecidableEq, Repr

/-- The state after a power-on reset: every field at the value its rule gives. -/
def State.reset : State := {}

/-- Why the machine stops with a fault. -/
inductive Fault where
  /-- Raised by nothing: the manual gives every command of the table an effect in every state (safe). -/
  | unreachable
deriving DecidableEq, Repr

/-- Why a command has no meaning. -/
inductive Refusal where
  /-- A command whose meaning has not been written yet; the arm of `exec` raises it (safe). -/
  | notModelled (mnemonic : String)
deriving DecidableEq, Repr

/-- What `exec` and `step` answer. -/
abbrev Result := Host.Outcome State Fault Refusal

end Sys2Proof.Machine
end

