-- ==== Sys2Proof/Config.lean ====
section
/-! DEFINITION. The values the manual leaves open, as constants without a body: nothing in Lean can evaluate them. -/

namespace Sys2Proof

/-- FREE VALUE (log 3). The bits that a flash operation which stopped at an unknown point (R172) or whose read-back
differs (R152, R168) leaves at an address. The first argument is the reading of the model's own counter
`State.free`, so two such operations are not tied to each other; the second is the flash address. -/
opaque Config.flashBits : Nat → Nat → Byte

/-- FREE VALUE (log 4). The data bytes of a reply for which the manual names the data and gives no byte layout. -/
opaque Config.replyBytes : Machine.ReplyData → List Byte

/-- FREE VALUE (log 4). The bytes of a report's fields: the manual names the fields and gives no byte layout. A report without
fields does not use it. -/
opaque Config.reportBytes : Machine.Report → List Byte

end Sys2Proof
end

