-- ==== Sys2Proof/Machine/Memory.lean ====
section
/-! DEFINITION. Reading and writing the tables and memories of `State`: one operation each, keeping the canonical form. -/

namespace Sys2Proof.Machine

variable {α : Type}

/-- What stands at `k`, or `d` where nothing is listed. -/
def Mem.get (d : α) : Mem α → Nat → α
  | [], _ => d
  | (j, v) :: t, k => if j = k then v else Mem.get d t k

/-- The table without what stood at `k`. -/
def Mem.drop (m : Mem α) (k : Nat) : Mem α := List.filter (fun e => e.1 != k) m

/-- The table with `v` at `k`, put before the first greater number; `k` is not listed before. -/
def Mem.insert : Mem α → Nat → α → Mem α
  | [], k, v => [(k, v)]
  | (j, w) :: t, k, v => if k < j then (k, v) :: (j, w) :: t else (j, w) :: Mem.insert t k v

/-- Write `v` at `k`; writing what an unlisted number reads as removes the entry. -/
def Mem.set [DecidableEq α] (d : α) (m : Mem α) (k : Nat) (v : α) : Mem α :=
  if v = d then Mem.drop m k else Mem.insert (Mem.drop m k) k v

/-- Change what stands at `k`. -/
def Mem.modify [DecidableEq α] (d : α) (m : Mem α) (k : Nat) (f : α → α) : Mem α :=
  Mem.set d m k (f (Mem.get d m k))

/-- Make every number in `lo ..< lo + n` read as unlisted. -/
def Mem.clear (m : Mem α) (lo n : Nat) : Mem α := List.filter (fun e => !(decide (lo ≤ e.1) && decide (e.1 < lo + n))) m

/-- Write the values of a list from number `k` on. -/
def Mem.setMany [DecidableEq α] (d : α) (m : Mem α) (k : Nat) : List α → Mem α
  | [] => m
  | v :: vs => Mem.setMany d (Mem.set d m k v) (k + 1) vs

/-- The `n` values from number `k` on. -/
def Mem.getMany (d : α) (m : Mem α) (k : Nat) : Nat → List α
  | 0 => []
  | n + 1 => Mem.get d m k :: Mem.getMany d m (k + 1) n

/-- The canonical form: numbers strictly rising, and no entry that reads as an unlisted number does. -/
abbrev Mem.Wf (d : α) (m : Mem α) : Prop :=
  List.Pairwise (fun x y => x.1 < y.1) m ∧ ∀ e ∈ m, e.2 ≠ d

/-- `true` when something is listed in `lo ..< lo + n`. -/
def Mem.listed (m : Mem α) (lo n : Nat) : Bool := List.any m (fun e => decide (lo ≤ e.1) && decide (e.1 < lo + n))

/-! ## Lists -/

/-- Put a number into an ascending list. -/
def insertNat (k : Nat) : List Nat → List Nat
  | [] => [k]
  | j :: t => if k < j then k :: j :: t else if k = j then j :: t else j :: insertNat k t

/-- Change the `i`-th element of a list, if there is one. -/
def modAt (l : List α) (i : Nat) (f : α → α) : List α :=
  match l, i with
  | [], _ => []
  | x :: t, 0 => f x :: t
  | x :: t, i + 1 => x :: modAt t i f

/-- The last element a predicate holds of. -/
def findLast (p : α → Bool) : List α → Option α
  | [] => none
  | x :: t => match findLast p t with
    | some y => some y
    | none => if p x then some x else none

/-- Change the last element a predicate holds of. -/
def modLast (p : α → Bool) (f : α → α) : List α → List α
  | [] => []
  | x :: t => if t.any p then x :: modLast p f t else if p x then f x :: t else x :: t

end Sys2Proof.Machine
end

