-- ==== Sys2Proof/Machine/Arith.lean ====
section
/-! DEFINITION. The integer arithmetic of chapter 2: saturation, gain product, mix accumulator, waveshaper, biquad
section, delay line and slew ramp, each exact. A quotient by a positive number written `/` is the floor. -/

namespace Sys2Proof.Machine

/-- The sample range of R17. -/
def sampleMax : Int := 8388607

/-- See `sampleMax`. -/
def sampleMin : Int := -8388608

/-- Unity gain (R18). -/
def unity : Int := 8192

/-- A result with whether a saturation on the way to it changed a value (R17). -/
structure Clipped where
  y : Int
  clip : Bool
deriving DecidableEq, Repr

/-- The value saturated to the sample range (R17). -/
def sat (x : Int) : Int := if x > sampleMax then sampleMax else if x < sampleMin then sampleMin else x

/-- Saturation with its clip event (R17). -/
def satClip (x : Int) : Clipped := ⟨sat x, decide (sat x ≠ x)⟩

/-- Replace a value outside `lo..hi` by the nearer end. -/
def clampInt (lo hi x : Int) : Int := if x < lo then lo else if x > hi then hi else x

/-- See `clampInt`. -/
def clampNat (lo hi x : Nat) : Nat := if x < lo then lo else if x > hi then hi else x

/-- Polarity inversion: the negation, saturated (R3, R17). -/
def invert (s : Int) : Clipped := satClip (-s)

/-- The gain product of a sample and a gain (R18). -/
def gainProduct (s g : Int) : Clipped := satClip ((s * g + 4096) / 8192)

/-- The mix accumulator over terms of sample and gain (R22): one exact sum, rounded once, saturated once. -/
def mixAcc (terms : List (Int × Int)) : Clipped :=
  satClip (((terms.map (fun t => t.1 * t.2)).sum + 4096) / 8192)

/-- The waveshaper over a curve of 257 entries (R25). -/
def shape (curve : List Int) (u : Int) : Int :=
  let w := u + 8388608
  let i := w / 65536
  let f := w - 65536 * i
  let lo := curve.getD i.toNat 0
  let hi := curve.getD (i.toNat + 1) 0
  lo + ((hi - lo) * f) / 65536

/-- One biquad section on one sample (R26): the output with its clip event, and the histories after it. -/
def biquad (c : Biquad) (h : Hist) (x0 : Int) : Clipped × Hist :=
  let acc := c.b0 * x0 + c.b1 * h.x1 + c.b2 * h.x2 - c.a1 * h.y1 - c.a2 * h.y2
  let y0 := satClip ((acc + 8192) / 16384)
  (y0, { x1 := x0, x2 := h.x1, y1 := y0.y, y2 := h.y1 })

/-- A filter set's sections in list order, each with its own histories (R27); a section without histories yet starts
from 0. -/
def filterSet : List Biquad → List Hist → Int → Clipped × List Hist
  | [], _, x => (⟨x, false⟩, [])
  | c :: cs, hs, x =>
    let r := biquad c (hs.headD {}) x
    let rest := filterSet cs hs.tail r.1.y
    (⟨rest.1.y, r.1.clip || rest.1.clip⟩, r.2 :: rest.2)

/-! ## Slew ramps -/

/-- One advance of a ramp (R31). -/
def Ramp.advance (r : Ramp) : Ramp :=
  if r.count = 0 then r
  else { r with v := r.v + Int.tdiv (r.target - r.v) r.count, count := r.count - 1 }

/-- A restart toward a target over a length; length 0 sets the value at once (R32). -/
def Ramp.restart (r : Ramp) (target : Int) (len : Nat) : Ramp :=
  if len = 0 then Ramp.at target else { v := r.v, target := target, count := len }

/-- The ramp set to its target (R13, R32). -/
def Ramp.snap (r : Ramp) : Ramp := Ramp.at r.target

/-! ## Delay lines -/

/-- The line memory address of region sample `k` of a page list (R28). -/
def regionAddr (pages : List Nat) (k : Nat) : Nat := 1024 * pages.getD (k / 1024) 0 + k % 1024

/-- What one delay line does in one sample period (R29): the line memory and write position after it, the sample read, and
whether a saturation changed a value. -/
structure LineStep where
  mem : Mem Int
  pos : Nat
  r : Int
  clip : Bool
deriving DecidableEq, Repr

/-- One period of the line of length `len` at region base `base`, with write position `q`, input `x`, delay `d` and
feedback gain `g` (R29). -/
def lineStep (pages : List Nat) (mem : Mem Int) (base len q : Nat) (x d g : Int) : LineStep :=
  let read := (((q : Int) - d) % (len : Int)).toNat
  let r := Mem.get 0 mem (regionAddr pages (base + read))
  let p := gainProduct r g
  let w := satClip (x + p.y)
  { mem := Mem.set 0 mem (regionAddr pages (base + q)) w.y
    pos := (q + 1) % len
    r := r
    clip := p.clip || w.clip }

end Sys2Proof.Machine
end

