-- ==== Sys2Proof/Machine/Layouts.lean ====
section
/-! DEFINITION. The codes and the bytes of what a link sends: result codes, report codes, reply and report frames (R189,
R190, R194, R200). -/

namespace Sys2Proof.Machine

/-- A number as one byte. -/
def b8 (n : Nat) : Byte := BitVec.ofNat 8 n

/-! ## Codes (R189, R194) -/

/-- The value of a result code (R189). -/
def Code.value : Code → Byte
  | .ok => 0x00
  | .busy => 0x01
  | .notReady => 0x02
  | .notFound => 0x03
  | .notOwner => 0x04
  | .notPermitted => 0x05
  | .locked => 0x06
  | .lockHeld => 0x07
  | .storeFull => 0x08
  | .storeFault => 0x09
  | .overBudget => 0x0A
  | .badField => 0x0B
  | .badLength => 0x0C
  | .unknownKind => 0x0D
  | .superseded => 0x0E

/-- The code of a report (R194). -/
def Report.code : Report → Byte
  | .recallDone .. => 0x01
  | .recallFailed .. => 0x02
  | .sceneDone .. => 0x03
  | .tunerReading .. => 0x10
  | .tunerLock .. => 0x11
  | .tempoLock .. => 0x20
  | .tempoValue .. => 0x21
  | .tapIgnored => 0x22
  | .silence .. => 0x30
  | .counterOverflow .. => 0x31
  | .clockState .. => 0x40
  | .bypassState .. => 0x41
  | .supplyState .. => 0x42
  | .scanDone .. => 0x43
  | .storeFault .. => 0x44
  | .linkState .. => 0x45
  | .owner .. => 0x46
  | .bindingFired .. => 0x50
  | .bindingFailed .. => 0x51
  | .stackFull .. => 0x52
  | .stackEmpty .. => 0x53
  | .reportsDropped .. => 0x7F

/-- KIND REPLY (R189). -/
def kindReply : Byte := 0x80

/-- KIND REPORT (R189). -/
def kindReport : Byte := 0x81

/-! ## Frames (R188, R200) -/

/-- The sum of the bytes of a frame, mod 256 (R188). -/
def frameSum (bytes : List Byte) : Byte := bytes.foldl (· + ·) 0

/-- A frame: SYNC, LEN, KIND, TAG, the payload, and the CHECK that makes the sum from LEN on 0 (R188, R200). -/
def frameBytes (kind tag : Byte) (payload : List Byte) : List Byte :=
  let held := [b8 payload.length, kind, tag] ++ payload
  0xA5 :: (held ++ [0 - frameSum held])

/-! ## What a frame carries (R190, R200) -/

/-- The data bytes of a reply: as the reply holds them, or in a layout that the manual does not give (FREE VALUE, log 4).
Only STATUS, READ_PRESET and LIST_PRESETS have more than 245 of them, and none more than two frames take (R190). -/
def ReplyData.layout : ReplyData → List Byte
  | .none => []
  | .bytes d => d.take 490
  | .status d => (Config.replyBytes (.status d)).take 490
  | d => (Config.replyBytes d).take 245

/-- Do a reply's data take more than 245 bytes, and so two frames (R190)? -/
def ReplyData.long : ReplyData → Bool
  | .bytes d => decide (245 < d.length)
  | .status d => decide (245 < (ReplyData.status d).layout.length)
  | _ => false

/-- The payload of a reply's frame: result code, notes, part byte and up to 245 data bytes. `more` says that a second frame
follows, and otherwise a long reply's second frame is meant (R190, R200; the other bits of the part byte are 0: DEDUCED, log
16). -/
def Reply.payload (r : Reply) (more : Bool) : List Byte :=
  [r.code.value, r.notes, if more then 0x80 else 0] ++
    (if more then r.data.layout.take 245 else if r.data.long then r.data.layout.drop 245 else r.data.layout)

/-- The bytes of a report's fields, in a layout that the manual does not give (FREE VALUE, log 4). No rule names a field of
TAP_IGNORED, which has none (R103, R194). -/
def Report.fields : Report → List Byte
  | .tapIgnored => []
  | r => (Config.reportBytes r).take 247

/-- The payload of a report's frame: the report code, then its fields (R200). -/
def Report.payload (r : Report) : List Byte := r.code :: r.fields

/-- The bytes of the frame that a link's transmitter is sending (R190): a report goes with TAG 0. -/
def LinkIo.sending (q : LinkIo) : Option (List Byte) :=
  match q.tx with
  | none => none
  | some (.report r) => some (frameBytes kindReport 0 r.payload)
  | some (.reply id more) =>
    match q.entries.find? (fun e => decide (e.id = id)) with
    | some e => e.reply.map (fun p => frameBytes kindReply e.tag (p.payload more))
    | none => none

end Sys2Proof.Machine
end

