-- ==== Sys2Proof/Machine/Ops.lean ====
section
/-! DEFINITION. The shared operations over `State`: lanes, buffers and slots; reports, replies, transmitters and
counters (R190, R194, R195). -/

namespace Sys2Proof.Machine

/-! ## Lanes -/

/-- Input lane `k` (1..8). -/
def inLane (s : State) (k : Nat) : InLane := Mem.get {} s.aup.inLanes k

/-- Change input lane `k`. -/
def modInLane (k : Nat) (f : InLane → InLane) (s : State) : State :=
  { s with aup := { s.aup with inLanes := Mem.modify {} s.aup.inLanes k f } }

/-- Output lane `k` (1..8). -/
def outLane (s : State) (k : Nat) : OutLane := Mem.get {} s.aup.outLanes k

/-- Change output lane `k`. -/
def modOutLane (k : Nat) (f : OutLane → OutLane) (s : State) : State :=
  { s with aup := { s.aup with outLanes := Mem.modify {} s.aup.outLanes k f } }

/-- The lane numbers 1..8. -/
def lanes : List Nat := [1, 2, 3, 4, 5, 6, 7, 8]

/-- Apply a change to the state for each number of a list, in order. -/
def forAll (l : List Nat) (f : Nat → State → State) (s : State) : State := l.foldl (fun s k => f k s) s

/-! ## Buffers and slots -/

/-- A chain buffer. -/
def buf (s : State) : BufId → Buffer
  | .a => s.tne.bufA
  | .b => s.tne.bufB

/-- Change a chain buffer. -/
def modBuf (bid : BufId) (f : Buffer → Buffer) (s : State) : State :=
  match bid with
  | .a => { s with tne := { s.tne with bufA := f s.tne.bufA } }
  | .b => { s with tne := { s.tne with bufB := f s.tne.bufB } }

/-- Change the chain record of a buffer. -/
def modChain (bid : BufId) (f : Chain → Chain) (s : State) : State := modBuf bid (fun u => { u with chain := f u.chain }) s

/-- Change slot `i` of a buffer's chain. -/
def modSlot (bid : BufId) (i : Nat) (f : Slot → Slot) (s : State) : State :=
  modChain bid (fun c => { c with slots := modAt c.slots i f }) s

/-- Change every slot of a buffer's chain. -/
def modSlots (bid : BufId) (f : Slot → Slot) (s : State) : State :=
  modChain bid (fun c => { c with slots := c.slots.map f }) s

/-- Slot `i` of a buffer's chain. -/
def slotAt (s : State) (bid : BufId) (i : Nat) : Option Slot := (buf s bid).chain.slots[i]?

/-- The buffer in a state, looking at A first. -/
def bufIn (s : State) (st : BufState) : Option BufId :=
  if s.tne.bufA.state = st then some .a else if s.tne.bufB.state = st then some .b else none

/-- The buffer processed as ACTIVE (R35). -/
def activeBuf (s : State) : Option BufId := bufIn s .active

/-- The OUTGOING buffer (R35). -/
def outgoingBuf (s : State) : Option BufId := bufIn s .outgoing

/-- The buffer that edits, toggles, the controller map and a SAVE reach as the ACTIVE buffer: the incoming one from the
fade start boundary on, even while it is READY (R145). -/
def editBuf (s : State) : Option BufId :=
  if s.rcu.state = .fading ∧ s.rcu.swapped = false then some s.rcu.build else activeBuf s

/-- The other buffer. -/
def otherBuf : BufId → BufId
  | .a => .b
  | .b => .a

/-- The pages of a region (R62). -/
def regionPages (m : Lma) (id : Option Nat) : List Nat :=
  match id with
  | none => []
  | some k => match Mem.get none m.regions k with
    | none => []
    | some r => r.pages

/-- The granted length of a region in samples (R62). -/
def regionLen (m : Lma) (id : Option Nat) : Nat := 1024 * (regionPages m id).length

/-! ## Links: queues, reports and replies -/

/-- A link's queues and transmitter. -/
def io (s : State) : Link → LinkIo
  | .main => s.lkc.main
  | .foot => s.lkc.foot

/-- Change a link's queues and transmitter. -/
def modIo (l : Link) (f : LinkIo → LinkIo) (s : State) : State :=
  match l with
  | .main => { s with lkc := { s.lkc with main := f s.lkc.main } }
  | .foot => { s with lkc := { s.lkc with foot := f s.lkc.foot } }

/-- The bit of a report class in a subscription set (R202). -/
def ReportClass.bit : ReportClass → Nat
  | .recall => 0
  | .tuner => 1
  | .tempo => 2
  | .level => 3
  | .system => 4
  | .binding => 5

/-- The class of a report; REPORTS_DROPPED has none (R194). -/
def Report.cls : Report → Option ReportClass
  | .recallDone .. | .recallFailed .. | .sceneDone .. => some .recall
  | .tunerReading .. | .tunerLock .. => some .tuner
  | .tempoLock .. | .tempoValue .. | .tapIgnored => some .tempo
  | .silence .. | .counterOverflow .. => some .level
  | .clockState .. | .bypassState .. | .supplyState .. | .scanDone .. | .storeFault .. | .linkState .. | .owner .. =>
    some .system
  | .bindingFired .. | .bindingFailed .. | .stackFull .. | .stackEmpty .. => some .binding
  | .reportsDropped .. => none

/-- The DONE entry that became DONE earliest (R190). -/
def earliestDone : List ReplyEntry → Option (ReplyEntry × Reply)
  | [] => none
  | e :: t =>
    match e.reply, earliestDone t with
    | none, r => r
    | some p, none => some (e, p)
    | some p, some (e', q) => if p.seq < q.seq then some (e, p) else some (e', q)

/-- A free transmitter sends the earliest DONE reply, or else the oldest report; taking the last report with reports
dropped queues REPORTS_DROPPED (R190, R194). -/
def LinkIo.start (io : LinkIo) : LinkIo :=
  match io.tx with
  | some _ => io
  | none =>
    match earliestDone io.entries with
    | some (e, p) => { io with tx := some (.reply e.id p.data.long) }
    | none =>
      match io.reports with
      | [] => io
      | [r] =>
        if io.drops = 0 then { io with tx := some (.report r), reports := [] }
        else { io with tx := some (.report r), reports := [.reportsDropped io.drops], drops := 0 }
      | r :: rs => { io with tx := some (.report r), reports := rs }

/-- Offer a report to a link's queue of at most 24 (R194). -/
def LinkIo.offer (r : Report) (io : LinkIo) : LinkIo :=
  if 24 ≤ io.reports.length then { io with drops := min 255 (io.drops + 1) }
  else LinkIo.start { io with reports := io.reports ++ [r] }

/-- Does a link subscribe to a class (R194)? -/
def LinkIo.subscribed (io : LinkIo) (c : ReportClass) : Bool := io.subs.getLsbD c.bit

/-- Queue a report on one link, whatever its subscriptions. -/
def postOn (l : Link) (r : Report) (s : State) : State := modIo l (LinkIo.offer r) s

/-- Queue a report on one link if it subscribes to the report's class. -/
def postIf (l : Link) (r : Report) (s : State) : State :=
  match r.cls with
  | some c => if (io s l).subscribed c then postOn l r s else s
  | none => s

/-- Post a report: it is offered to each link that subscribes to its class (R194). -/
def post (r : Report) (s : State) : State := postIf .foot r (postIf .main r s)

/-- Make an entry of a reply queue DONE (R190). -/
def LinkIo.finish (id : Nat) (code : Code) (notes : Byte) (data : ReplyData) (io : LinkIo) : LinkIo :=
  LinkIo.start
    { io with
      nextSeq := io.nextSeq + 1
      entries := io.entries.map (fun e =>
        if e.id = id ∧ e.reply = none then { e with reply := some ⟨io.nextSeq, code, notes, data⟩ } else e) }

/-- Answer a request at its destination; a request without a link gets no reply. -/
def answer (dest : Option Dest) (code : Code) (notes : Byte) (data : ReplyData) (s : State) : State :=
  match dest with
  | none => s
  | some d => modIo d.link (LinkIo.finish d.id code notes data) s

/-- Answer with a code, no notes and no data. -/
def answerCode (dest : Option Dest) (code : Code) (s : State) : State := answer dest code 0 .none s

/-! ## Notes of a reply (R200) -/

/-- Bit 0 of the note byte. -/
def noteClamped : Byte := 1
/-- Bit 1 of the note byte. -/
def noteDipped : Byte := 2
/-- Bit 2 of the note byte. -/
def noteTailsCut : Byte := 4
/-- Bit 3 of the note byte. -/
def notePagesClamped : Byte := 8
/-- Bit 4 of the note byte. -/
def noteModelMissing : Byte := 16
/-- Bit 5 of the note byte. -/
def noteEditsDiscarded : Byte := 32

/-- CLAMPED if a value was clamped. -/
def clampedIf (b : Bool) : Byte := if b then noteClamped else 0

/-- Give the recall in flight a note (R78, R147). -/
def noteFlight (n : Byte) (s : State) : State :=
  { s with rcu := { s.rcu with flight := s.rcu.flight.map (fun r => { r with notes := r.notes ||| n }) } }

/-! ## The counter bank (R195) -/

/-- Counter of input clips of lane k. -/
def ctrInput (k : Nat) : Nat := k - 1
/-- Counter of output clips of lane k. -/
def ctrOutput (k : Nat) : Nat := 7 + k
/-- The chain saturation counter. -/
def ctrChain : Nat := 16
/-- The frame error counter of a link. -/
def ctrFrame : Link → Nat
  | .main => 17
  | .foot => 18
/-- The MIDI frame error counter. -/
def ctrMidi : Nat := 19
/-- The link event error counter. -/
def ctrEvent : Nat := 20
/-- The store fault counter. -/
def ctrStore : Nat := 21

/-- One event: the counter goes up by 1, or from 65,535 to 0 with COUNTER_OVERFLOW (R195). -/
def countEvent (i : Nat) (s : State) : State :=
  let v := Mem.get 0 s.lkc.counters i
  if v < 65535 then { s with lkc := { s.lkc with counters := Mem.set 0 s.lkc.counters i (v + 1) } }
  else post (.counterOverflow i) { s with lkc := { s.lkc with counters := Mem.set 0 s.lkc.counters i 0 } }

/-- One event if a condition holds. -/
def countIf (b : Bool) (i : Nat) (s : State) : State := if b then countEvent i s else s

end Sys2Proof.Machine
end

