-- ==== Sys2Proof/Machine/Operands.lean ====
section
/-! DEFINITION. The operand forms: the slot kind table (R36), and the byte layouts of payloads, stored records and
binding records (R200, R201, R202). -/

namespace Sys2Proof.Machine

/-! ## Bytes and fields (R200) -/

/-- The byte at offset `i` of a payload, as a number. -/
def rd (p : List Byte) (i : Nat) : Nat := (p.getD i 0).toNat

/-- Two bytes, most significant first. -/
def rd16 (p : List Byte) (i : Nat) : Nat := 256 * rd p i + rd p (i + 1)

/-- Two bytes in two's complement. -/
def rdS16 (p : List Byte) (i : Nat) : Int := (BitVec.ofNat 16 (rd16 p i)).toInt

/-- Three bytes, most significant first. -/
def rd24 (p : List Byte) (i : Nat) : Nat := 65536 * rd p i + rd16 p (i + 1)

/-- Three bytes in two's complement. -/
def rdS24 (p : List Byte) (i : Nat) : Int := (BitVec.ofNat 24 (rd24 p i)).toInt

/-- A number as two bytes. -/
def bytes16 (n : Nat) : List Byte := [b8 (n / 256), b8 n]

/-- A number as three bytes. -/
def bytes24 (n : Nat) : List Byte := [b8 (n / 65536), b8 (n / 256), b8 n]

/-- A signed number as two bytes of two's complement. -/
def bytesS16 (x : Int) : List Byte := bytes16 (BitVec.ofInt 16 x).toNat

/-- A flag as one byte. -/
def bytesBool (b : Bool) : List Byte := [if b then 1 else 0]

/-- The bytes before the first 0 of a name field (R201). -/
def nameOf (field : List Byte) : List Byte := field.takeWhile (· ≠ 0)

/-- A name field of 16 bytes. -/
def nameField (name : List Byte) : List Byte := (name ++ List.replicate 16 0).take 16

/-- Where each of a run of optional fields stands: field `bit` of a presence value is sent only when its bit is set, and the
fields present follow one another (R202). -/
def fieldOffsets (mask : Nat) : Nat → Nat → List Nat → List (Option Nat)
  | _, _, [] => []
  | bit, off, size :: rest =>
    if mask.testBit bit then some off :: fieldOffsets mask (bit + 1) (off + size) rest
    else none :: fieldOffsets mask (bit + 1) off rest

/-- The number of bytes the fields present take. -/
def presentLen (mask : Nat) : Nat → List Nat → Nat
  | _, [] => 0
  | bit, size :: rest => (if mask.testBit bit then size else 0) + presentLen mask (bit + 1) rest

/-- An optional field read by a code table: `some none` when it is not sent, `none` when its code is none of those listed. -/
def optField {β : Type} (p : List Byte) (off : Option Nat) (code : Nat → Option β) : Option (Option β) :=
  match off with
  | none => some none
  | some i => (code (rd p i)).map some

/-! ## Slot kinds (R36, R59) -/

/-- The kind of a kind code (R201). -/
def kindOfCode : Nat → Option Kind
  | 1 => some .trim
  | 2 => some .gate
  | 3 => some .drive
  | 4 => some .amp
  | 5 => some .cab
  | 6 => some .eq
  | 7 => some .mod
  | 8 => some .delay
  | 9 => some .reverb
  | 10 => some .loop
  | 11 => some .level
  | _ => none

/-- The kind code of a kind (R201). -/
def Kind.code : Kind → Nat
  | .trim => 1
  | .gate => 2
  | .drive => 3
  | .amp => 4
  | .cab => 5
  | .eq => 6
  | .mod => 7
  | .delay => 8
  | .reverb => 9
  | .loop => 10
  | .level => 11

/-- The cost of a slot kind in budget units (R36). -/
def Kind.cost : Kind → Nat
  | .trim => 4
  | .gate => 16
  | .drive => 48
  | .amp => 224
  | .cab => 160
  | .eq => 64
  | .mod => 96
  | .delay => 80
  | .reverb => 320
  | .loop => 24
  | .level => 4

/-- The classes of a parameter (R36). -/
inductive ParamClass where
  | continuous | discrete | setting
deriving DecidableEq, Repr

/-- The parameters of a kind by index: class and range (R36). -/
def Kind.params : Kind → List (ParamClass × Int × Int)
  | .trim => [(.continuous, 0, 1023)]
  | .gate => [(.continuous, 0, 65535), (.setting, 1, 2000)]
  | .drive => [(.continuous, 0, 1023), (.discrete, 0, 15), (.continuous, 0, 1023)]
  | .amp => [(.continuous, 0, 1023), (.discrete, 0, 15), (.discrete, 0, 31), (.continuous, 0, 1023)]
  | .cab => [(.discrete, 0, 31), (.continuous, 0, 1023)]
  | .eq => [(.discrete, 0, 31), (.continuous, 0, 1023)]
  | .mod => [(.continuous, 1, 1000), (.continuous, 0, 1023), (.continuous, 0, 1023)]
  | .delay => [(.continuous, 1, 5000), (.discrete, 0, 6), (.setting, 1, 5000), (.continuous, 0, 1023),
      (.continuous, 0, 1023), (.setting, 0, 20000)]
  | .reverb => [(.continuous, 0, 1023), (.continuous, 0, 1023), (.setting, 0, 20000)]
  | .loop => [(.continuous, 0, 1023), (.continuous, 0, 1023)]
  | .level => [(.continuous, 0, 1023)]

/-- How many parameters a kind has. -/
def Kind.count (k : Kind) : Nat := k.params.length

/-- The class of a parameter, if the kind has it. -/
def Kind.cls (k : Kind) (i : Nat) : Option ParamClass := (k.params[i]?).map (·.1)

/-- A parameter value brought into its range (R36). -/
def Kind.clamp (k : Kind) (i : Nat) (v : Int) : Int :=
  match k.params[i]? with
  | some (_, lo, hi) => clampInt lo hi v
  | none => v

/-- A parameter value as two bytes carry it: signed, but for the GATE threshold (R36). -/
def Kind.read (k : Kind) (i : Nat) (p : List Byte) (off : Nat) : Int :=
  if k = .gate ∧ i = 0 then (rd16 p off : Int) else rdS16 p off

/-- Is the kind one whose spill and trail flags have meaning (R36)? -/
def Kind.spills : Kind → Bool
  | .delay => true
  | .reverb => true
  | _ => false

/-- The pages a slot asks for (R36, chapter 4.2). -/
def pagesAsked (k : Kind) (run : List Int) : Nat :=
  match k with
  | .mod => 2
  | .reverb => 10
  | .delay => (((run.getD 2 0).toNat * 48 + 1) + 1023) / 1024
  | _ => 0

/-! ## The PRESET image (R201, R164) -/

/-- Something read off a byte list: the value, the bytes left, and whether a value was clamped. -/
structure Parsed (α : Type) where
  val : α
  rest : List Byte
  clamped : Bool

/-- Parse `n` things one after another. -/
def parseMany {α : Type} (f : List Byte → Option (Parsed α)) : Nat → List Byte → Option (Parsed (List α))
  | 0, p => some ⟨[], p, false⟩
  | n + 1, p =>
    match f p with
    | none => none
    | some x =>
      match parseMany f n x.rest with
      | none => none
      | some xs => some ⟨x.val :: xs.val, xs.rest, x.clamped || xs.clamped⟩

/-- The parameter values of a kind at the head of a byte list. -/
def readParams (k : Kind) (p : List Byte) : List Int := (List.range k.count).map (fun i => k.read i p (2 * i))

/-- The values brought into their ranges. -/
def clampParams (k : Kind) (vs : List Int) : List Int := vs.mapIdx (fun i v => k.clamp i v)

/-- A slot entry (R201): kind code, flag byte, two bytes per parameter. A spill or trail flag on a kind for which it has no
meaning is refused by SAVE_RECORD (`strict`), and taken as clear where a slot is built (R36, R164). Bits 3..7 of the flag
byte are disregarded (DESIGN CHOICE, log 80). -/
def parseSlot (strict : Bool) (p : List Byte) : Option (Parsed Slot) :=
  match kindOfCode (rd p 0) with
  | none => none
  | some k =>
    let flags := p.getD 1 0
    let vs := readParams k (p.drop 2)
    if p.length < 2 + 2 * k.count then none
    else if strict && (flags.getLsbD 1 || flags.getLsbD 2) && !k.spills then none
    else some
      { val := { kind := k, defBypass := flags.getLsbD 0, spill := flags.getLsbD 1 && k.spills,
                 trail := flags.getLsbD 2 && k.spills, params := clampParams k vs }
        rest := p.drop (2 + 2 * k.count)
        clamped := decide (clampParams k vs ≠ vs) }

/-- A relay set of three bytes: present, loops, amp lines (R201). An amp line byte with one of bits 4..7 set is no value of
the field; with present 0 the other two bytes are disregarded (DESIGN CHOICE, log 81). -/
def parseRelays (p : List Byte) (i : Nat) : Option (Option RelaySet) :=
  if rd p i = 0 then some none
  else if rd p i = 1 ∧ rd p (i + 2) < 16 then some (some ⟨b8 (rd p (i + 1)), BitVec.ofNat 4 (rd p (i + 2))⟩)
  else none

/-- An override's value as its slot's kind reads it, with its clamp; an override that names no parameter of the chain
is stored as it stands (R164). -/
def parseOverride (slots : List Slot) (p : List Byte) : Option (Parsed Override) :=
  if p.length < 4 then none
  else
    match slots[rd p 0]? with
    | none => some ⟨⟨rd p 0, rd p 1, rdS16 p 2⟩, p.drop 4, false⟩
    | some sl =>
      let v := sl.kind.read (rd p 1) p 2
      some ⟨⟨rd p 0, rd p 1, sl.kind.clamp (rd p 1) v⟩, p.drop 4, decide (sl.kind.clamp (rd p 1) v ≠ v)⟩

/-- A scene entry (R201). A bypass set keeps the bits that name no slot of the chain (DESIGN CHOICE, log 80). -/
def parseScene (slots : List Slot) (p : List Byte) : Option (Parsed Scene) :=
  if p.length < 8 then none
  else
    match parseRelays p 2 with
    | none => none
    | some relays =>
      if 8192 < rd16 p 5 ∨ 8 < rd p 7 then none
      else
        match parseMany (parseOverride slots) (rd p 7) (p.drop 8) with
        | none => none
        | some os =>
          some ⟨{ bypass := BitVec.ofNat 16 (rd16 p 0), overrides := os.val, relays := relays, ramp := rd16 p 5 },
            os.rest, os.clamped⟩

/-- How many zero bytes follow an image of `n` bytes to make header and body a multiple of 4 (R201). -/
def padding (n : Nat) : Nat := (4 - n % 4) % 4

/-- The input selection of a code. -/
def inputOfCode : Nat → Option InputSel
  | 0 => some .lane1
  | 1 => some .lane2
  | 2 => some .sum
  | _ => none

/-- The code of an input selection. -/
def InputSel.code : InputSel → Nat
  | .lane1 => 0
  | .lane2 => 1
  | .sum => 2

/-- A PRESET image: the stored form of a chain record, or nothing where the fields are not those of R164. The length
of the image must be the one its counts imply, with padding bytes of any value (DESIGN CHOICE, log 80); `strict` as for a
slot. -/
def parsePreset (strict : Bool) (p : List Byte) : Option (Chain × Bool) :=
  if p.length < 27 ∨ 1008 < p.length then none
  else
    match inputOfCode (rd p 16), parseRelays p 22 with
    | some inp, some relays =>
      if 1 < rd p 21 ∨ 12 < rd p 25 ∨ rd p 26 = 0 ∨ 4 < rd p 26 then none
      else
        match parseMany (parseSlot strict) (rd p 25) (p.drop 27) with
        | none => none
        | some sl =>
          match parseMany (parseScene sl.val) (rd p 26) sl.rest with
          | none => none
          | some sc =>
            if sc.rest.length ≠ padding (p.length - sc.rest.length) then none
            else
              let tempo := if rd16 p 19 = 0 then none else some (clampNat 400 3000 (rd16 p 19))
              some ({ name := nameOf (p.take 16), input := inp, fadeLen := rd16 p 17, tempo := tempo,
                      quantize := decide (rd p 21 = 1), relays := relays, slots := sl.val, scenes := sc.val },
                sl.clamped || sc.clamped || decide (tempo ≠ none ∧ tempo ≠ some (rd16 p 19)))
    | _, _ => none

/-- Three bytes of a relay set. -/
def relayBytes : Option RelaySet → List Byte
  | none => [0, 0, 0]
  | some r => [1, r.loops, b8 r.amps.toNat]

/-- A slot entry. -/
def slotBytes (sl : Slot) : List Byte :=
  [b8 sl.kind.code, (if sl.defBypass then 1 else 0) + (if sl.spill then 2 else 0) + (if sl.trail then 4 else 0)] ++
    sl.params.flatMap bytesS16

/-- A scene entry. -/
def sceneBytes (sc : Scene) : List Byte :=
  bytes16 sc.bypass.toNat ++ relayBytes sc.relays ++ bytes16 sc.ramp ++ [b8 sc.overrides.length] ++
    sc.overrides.flatMap (fun o => [b8 o.slot, b8 o.param] ++ bytesS16 o.value)

/-- The PRESET image of a chain's stored values, under a name (R163, R201). -/
def presetImage (c : Chain) (name : List Byte) : List Byte :=
  let body := nameField name ++ [b8 c.input.code] ++ bytes16 c.fadeLen ++ bytes16 (c.tempo.getD 0) ++
    bytesBool c.quantize ++ relayBytes c.relays ++ [b8 c.slots.length, b8 c.scenes.length] ++
    c.slots.flatMap slotBytes ++ c.scenes.flatMap sceneBytes
  body ++ List.replicate (padding body.length) 0

/-- The cost of a list of slots; a stub costs 0 (R59, R72). -/
def slotsCost (slots : List Slot) : Nat := (slots.map (fun sl => if sl.stub then 0 else sl.kind.cost)).sum

/-! ## Binding records (R201) -/

/-- The gesture of a code. -/
def gestureOfCode : Nat → Option Gesture
  | 0 => some .press
  | 1 => some .release
  | 2 => some .hold
  | _ => none

/-- The code of a gesture. -/
def Gesture.code : Gesture → Nat
  | .press => 0
  | .release => 1
  | .hold => 2

/-- ON, OFF or TOGGLE of a code. -/
def onOffOfCode : Nat → Option OnOff
  | 0 => some .on
  | 1 => some .off
  | 2 => some .toggle
  | _ => none

/-- The code of ON, OFF or TOGGLE. -/
def OnOff.code : OnOff → Nat
  | .on => 0
  | .off => 1
  | .toggle => 2

/-- What an operation makes of a flag. -/
def OnOff.apply (op : OnOff) (b : Bool) : Bool :=
  match op with
  | .on => true
  | .off => false
  | .toggle => !b

/-- SET, CLEAR or TOGGLE of a code. -/
def flagOpOfCode : Nat → Option FlagOp
  | 0 => some .set
  | 1 => some .clear
  | 2 => some .toggle
  | _ => none

/-- The code of SET, CLEAR or TOGGLE. -/
def FlagOp.code : FlagOp → Nat
  | .set => 0
  | .clear => 1
  | .toggle => 2

/-- The trigger of bytes 0..2 of a binding record. -/
def parseTrigger (p : List Byte) : Option Trigger :=
  match rd p 0 with
  | 0 => some .none
  | 1 => if rd p 1 < 16 then (gestureOfCode (rd p 2)).map (Trigger.foot (rd p 1)) else none
  | 2 => if 16 ≤ rd p 1 ∧ rd p 1 < 24 then (gestureOfCode (rd p 2)).map (Trigger.panel (rd p 1)) else none
  | 3 => if rd p 1 < 128 then some (.midiPc (rd p 1)) else none
  | 4 => if rd p 1 < 120 ∧ 1 ≤ rd p 2 ∧ rd p 2 < 128 then some (.midiCc (rd p 1) (rd p 2)) else none
  | _ => none

/-- The condition of byte 3 (R201). A byte other than 0xFF with one of bits 4 to 7 set is no condition (DESIGN CHOICE, log 71). -/
def parseCond (p : List Byte) : Option (Option (Nat × Bool)) :=
  if rd p 3 = 255 then some none
  else if rd p 3 < 16 then some (some (rd p 3 % 8, decide (8 ≤ rd p 3)))
  else none

/-- The action of bytes 4..10. -/
def parseAction (p : List Byte) : Option Action :=
  match rd p 4 with
  | 1 =>
    if 3 < rd p 7 then none
    else if rd p 5 = 0 then some (.recall (rd p 6) (rd p 7))
    else if rd p 5 = 1 ∧ rd p 6 < 8 then some (.recallBank (rd p 6) (rd p 7))
    else none
  | 2 => if rd p 5 < 4 then some (.scene (rd p 5)) else none
  | 3 => if rd p 6 < 4 ∧ rd p 8 < 4 then some (.flip (rd p 5) (rd p 6) (rd p 7) (rd p 8)) else none
  | 4 => if rd p 6 < 4 then some (.momentary (rd p 5) (rd p 6)) else none
  | 5 => some .ret
  | 6 =>
    match kindOfCode (rd p 5) with
    | some k => if 1 ≤ rd p 6 ∧ rd p 6 ≤ 4 then some (.slotToggle k (rd p 6)) else none
    | none => none
  | 7 =>
    match rd p 5 with
    | 0 => some (.bank .up)
    | 1 => some (.bank .down)
    | 2 => if rd p 6 < 32 then some (.bank (.set (rd p 6))) else none
    | _ => none
  | 8 => some .tap
  | 9 => (onOffOfCode (rd p 5)).map Action.tune
  | 10 => (flagOpOfCode (rd p 5)).map (fun op => Action.flag op (p.getD 6 0))
  | 11 => (onOffOfCode (rd p 5)).map Action.bypass
  | _ => none

/-- A binding record of 12 bytes; trigger 0 is an empty record (R201, R202). Unused bytes may hold anything (DESIGN
CHOICE, log 57). -/
def parseBinding (p : List Byte) : Option Binding :=
  match parseTrigger p with
  | none => none
  | some .none => some {}
  | some t =>
    match parseCond p, parseAction p with
    | some c, some a =>
      if rd p 11 < 2 then some { trigger := t, cond := c, action := a, report := decide (rd p 11 = 1) } else none
    | _, _ => none

/-- Bytes 0..2 of a binding record. -/
def triggerBytes : Trigger → List Byte
  | .none => [0, 0, 0]
  | .foot k g => [1, b8 k, b8 g.code]
  | .panel k g => [2, b8 k, b8 g.code]
  | .midiPc n => [3, b8 n, 0]
  | .midiCc n th => [4, b8 n, b8 th]

/-- The number of an action kind in the order of R125, 0 for none. -/
def Action.code : Action → Nat
  | .none => 0
  | .recall .. | .recallBank .. => 1
  | .scene .. => 2
  | .flip .. => 3
  | .momentary .. => 4
  | .ret => 5
  | .slotToggle .. => 6
  | .bank .. => 7
  | .tap => 8
  | .tune .. => 9
  | .flag .. => 10
  | .bypass .. => 11

/-- Bytes 5..10 of a binding record, before the unused bytes. -/
def Action.fields : Action → List Byte
  | .recall p sc => [0, b8 p, b8 sc]
  | .recallBank k sc => [1, b8 k, b8 sc]
  | .scene sc => [b8 sc]
  | .flip p0 s0 p1 s1 => [b8 p0, b8 s0, b8 p1, b8 s1]
  | .momentary p sc => [b8 p, b8 sc]
  | .slotToggle k n => [b8 k.code, b8 n]
  | .bank .up => [0]
  | .bank .down => [1]
  | .bank (.set n) => [2, b8 n]
  | .tune op => [b8 op.code]
  | .flag op m => [b8 op.code, m]
  | .bypass op => [b8 op.code]
  | .none => []
  | .ret => []
  | .tap => []

/-- The 12 bytes of a binding record (R201). -/
def bindingBytes (r : Binding) : List Byte :=
  triggerBytes r.trigger ++
    [match r.cond with | none => 255 | some (k, v) => b8 (k + if v then 8 else 0), b8 r.action.code] ++
    (r.action.fields ++ List.replicate 6 0).take 6 ++ bytesBool r.report

/-! ## Settings codes (R202) -/

/-- The tuner channel field of a code. -/
def tuneChannelOfCode : Nat → Option TuneChannel
  | 0 => some .t1
  | 1 => some .t2
  | 2 => some .follow
  | _ => none

/-- The code of a tuner channel field. -/
def TuneChannel.code : TuneChannel → Nat
  | .t1 => 0
  | .t2 => 1
  | .follow => 2

/-- The policy of a code. -/
def policyOfCode : Nat → Option Policy
  | 0 => some .mute
  | 1 => some .dry
  | 2 => some .live
  | _ => none

/-- The code of a policy. -/
def Policy.code : Policy → Nat
  | .mute => 0
  | .dry => 1
  | .live => 2

/-- The output source of a code. -/
def sourceOfCode : Nat → Option Source
  | 0 => some .engine
  | 1 => some .dry
  | 2 => some .tone
  | 3 => some .zero
  | _ => none

/-- The code of an output source. -/
def Source.code : Source → Nat
  | .engine => 0
  | .dry => 1
  | .tone => 2
  | .zero => 3

/-- A value of 0 or 1. -/
def flagOfCode : Nat → Option Bool
  | 0 => some false
  | 1 => some true
  | _ => none

/-! ## Controller map entries (R55, R202) -/

/-- The source of a controller map entry: a source code, and the CC number that follows it, which an entry for P0 or P1
disregards (DESIGN CHOICE, log 68); `none` where the source is not one of those listed. -/
def mapSourceOfCode (code cc : Nat) : Option MapSource :=
  match code with
  | 1 => some .p0
  | 2 => some .p1
  | 3 => if cc < 120 then some (.cc cc) else none
  | _ => none

/-- The nine bytes of a controller map entry that is not NONE, but for the occurrence, which is given: source, CC number,
kind, (occurrence), parameter, minimum and maximum. `none` where the source, the kind or the parameter is none of those
listed; minimum and maximum are clamped to the parameter's range. -/
def readMapEntry (occ : Nat) (p : List Byte) (i : Nat) : Option (MapEntry × Bool) :=
  match mapSourceOfCode (rd p i) (rd p (i + 1)), kindOfCode (rd p (i + 2)) with
  | some src, some k =>
    let par := rd p (i + 4)
    if k.cls par ≠ some .continuous then none
    else
      let lo := k.read par p (i + 5)
      let hi := k.read par p (i + 7)
      some (⟨src, k, occ, par, k.clamp par lo, k.clamp par hi⟩, decide (k.clamp par lo ≠ lo ∨ k.clamp par hi ≠ hi))
  | _, _ => none

/-- A controller map entry as CTRL_MAP carries it, with whether its minimum or maximum was clamped; `none` where a field is
outside its values, the occurrence outside 1..4 among them (R55). -/
def parseMapEntry (p : List Byte) (i : Nat) : Option (Option MapEntry × Bool) :=
  if rd p i = 0 then some (none, false)
  else if rd p (i + 3) = 0 ∨ 4 < rd p (i + 3) then none
  else (readMapEntry (rd p (i + 3)) p i).map (fun e => (some e.1, e.2))

/-- The nine bytes of a controller map entry. -/
def mapEntryBytes : Option MapEntry → List Byte
  | none => List.replicate 9 0
  | some e =>
    (match e.source with | .p0 => [1, 0] | .p1 => [2, 0] | .cc n => [3, b8 n]) ++
      [b8 e.kind.code, b8 e.occ, b8 e.param] ++ bytesS16 e.min ++ bytesS16 e.max

/-! ## The GLOBALS image (R155; its 188 bytes in R155's order, log 6) -/

/-- The settings a GLOBALS record carries (R155). -/
structure Globals where
  lock : LockRange := {}
  settingsLock : Bool := false
  ref : Nat := 4400
  window : Nat := 4
  channel : TuneChannel := .follow
  policy : Policy := .mute
  exitOnRecall : Bool := false
  midiSource : Bool := false
  presetSets : Bool := false
  holdTime : Nat := 600
  midiChannel : Option Nat := none
  directMap : Bool := false
  ins : List InRec := List.replicate 8 {}
  outs : List OutRec :=
    List.replicate 5 ({} : OutRec) ++ List.replicate 3 ({ source := .zero } : OutRec)
  ctrlMap : List (Option MapEntry) := List.replicate 8 none
  boot : Nat := 0
  footPermit : Bool := false
deriving DecidableEq, Repr

/-- Seven bytes of an input lane record. -/
def inRecBytes (r : InRec) : List Byte :=
  bytes16 r.trim ++ bytesBool r.inverted ++ bytesBool r.mute ++ bytes16 r.threshold ++ [b8 r.loopback]

/-- Five bytes of an output lane record. -/
def outRecBytes (r : OutRec) : List Byte :=
  [b8 r.source.code] ++ bytes16 r.trim ++ bytesBool r.inverted ++ bytesBool r.mute

/-- The 188 bytes of a GLOBALS body. -/
def globalsImage (g : Globals) : List Byte :=
  bytesBool g.lock.bottom ++ [b8 g.lock.size] ++ bytesBool g.lock.complement ++ bytesBool g.settingsLock ++
    bytes16 g.ref ++ [b8 g.window, b8 g.channel.code, b8 g.policy.code] ++ bytesBool g.exitOnRecall ++
    bytesBool g.midiSource ++ bytesBool g.presetSets ++ bytes16 g.holdTime ++ [b8 (g.midiChannel.getD 0)] ++
    bytesBool g.directMap ++ g.ins.flatMap inRecBytes ++ g.outs.flatMap outRecBytes ++
    g.ctrlMap.flatMap mapEntryBytes ++ [b8 g.boot] ++ bytesBool g.footPermit ++ [0, 0]

/-- A field that must be one of its listed values, else its power-on value, counted (R175). -/
def listedOr {β : Type} (o : Option β) (powerOn : β) : β × Nat :=
  match o with
  | some x => (x, 0)
  | none => (powerOn, 1)

/-- A field clamped to its range, counted when it was outside (R175). -/
def clampedField (lo hi x : Nat) : Nat × Nat := (clampNat lo hi x, if clampNat lo hi x = x then 0 else 1)

/-- An input lane record of seven bytes, with the number of fields mended; a loopback source above 8 is none of those listed
(DESIGN CHOICE, log 76). -/
def parseInRec (p : List Byte) (i : Nat) : InRec × Nat :=
  let t := clampedField 0 32767 (rd16 p i)
  let v := listedOr (flagOfCode (rd p (i + 2))) false
  let m := listedOr (flagOfCode (rd p (i + 3))) false
  let l := listedOr (if rd p (i + 6) ≤ 8 then some (rd p (i + 6)) else none) 0
  (⟨t.1, v.1, m.1, rd16 p (i + 4), l.1⟩, t.2 + v.2 + m.2 + l.2)

/-- An output lane record of five bytes, with the number of fields mended; `d` is the lane's power-on record. -/
def parseOutRec (d : OutRec) (p : List Byte) (i : Nat) : OutRec × Nat :=
  let s := listedOr (sourceOfCode (rd p i)) d.source
  let t := clampedField 0 32767 (rd16 p (i + 1))
  let v := listedOr (flagOfCode (rd p (i + 3))) false
  let m := listedOr (flagOfCode (rd p (i + 4))) false
  (⟨s.1, t.1, v.1, m.1⟩, s.2 + t.2 + v.2 + m.2)

/-- A controller map entry as GLOBALS carries it, with the number of fields mended; an entry is one field (DESIGN CHOICE,
log 65). An occurrence outside 1..4 is clamped as minimum and maximum are (R55, R175). A source or kind that is none of
those listed (DEDUCED, log 77), or a parameter that is not a C-class one of the kind (DESIGN CHOICE, log 77), gives the
entry its power-on value NONE. -/
def parseMapField (p : List Byte) (i : Nat) : Option MapEntry × Nat :=
  if rd p i = 0 then (none, 0)
  else
    let occ := clampedField 1 4 (rd p (i + 3))
    match readMapEntry occ.1 p i with
    | none => (none, 1)
    | some (e, clamped) => (some e, if clamped then 1 else occ.2)

/-- The settings of a GLOBALS body, with the number of fields clamped or set to their power-on values (R175). A MIDI receive
channel above 16 is none of those listed and becomes OMNI (DESIGN CHOICE, log 76); a body that is not of R155's length
is read at the places of R155's fields, a missing byte as 0 (DESIGN CHOICE, log 78). -/
def parseGlobals (p : List Byte) : Globals × Nat :=
  let lb := listedOr (flagOfCode (rd p 0)) false
  let ls := listedOr (if rd p 1 ≤ 6 then some (rd p 1) else none) 0
  let lc := listedOr (flagOfCode (rd p 2)) false
  let sl := listedOr (flagOfCode (rd p 3)) false
  let rf := clampedField 4000 4800 (rd16 p 4)
  let w := listedOr (if rd p 6 = 0 ∨ rd p 6 = 4 ∨ rd p 6 = 5 ∨ rd p 6 = 6 then some (rd p 6) else none) 4
  let tc := listedOr (tuneChannelOfCode (rd p 7)) .follow
  let po := listedOr (policyOfCode (rd p 8)) .mute
  let ex := listedOr (flagOfCode (rd p 9)) false
  let ms := listedOr (flagOfCode (rd p 10)) false
  let ps := listedOr (flagOfCode (rd p 11)) false
  let ht := clampedField 200 2000 (rd16 p 12)
  let mc := listedOr (if rd p 14 ≤ 16 then some (rd p 14) else none) 0
  let dm := listedOr (flagOfCode (rd p 15)) false
  let ins := (List.range 8).map (fun k => parseInRec p (16 + 7 * k))
  let outs := (List.range 8).map (fun k => parseOutRec (if k < 5 then {} else { source := .zero }) p (72 + 5 * k))
  let mp := (List.range 8).map (fun k => parseMapField p (112 + 9 * k))
  let fp := listedOr (flagOfCode (rd p 185)) false
  ({ lock := ⟨lb.1, ls.1, lc.1⟩, settingsLock := sl.1, ref := rf.1, window := w.1, channel := tc.1, policy := po.1,
     exitOnRecall := ex.1, midiSource := ms.1, presetSets := ps.1, holdTime := ht.1,
     midiChannel := if mc.1 = 0 then none else some mc.1, directMap := dm.1, ins := ins.map (·.1),
     outs := outs.map (·.1), ctrlMap := mp.map (·.1), boot := rd p 184, footPermit := fp.1 },
    lb.2 + ls.2 + lc.2 + sl.2 + rf.2 + w.2 + tc.2 + po.2 + ex.2 + ms.2 + ps.2 + ht.2 + mc.2 + dm.2 +
      (ins.map (·.2)).sum + (outs.map (·.2)).sum + (mp.map (·.2)).sum + fp.2)

/-- The 64 binding records of a BINDINGS body (R201). -/
def bindingsImage (m : Mem Binding) : List Byte := (List.range 64).flatMap (fun i => bindingBytes (Mem.get {} m i))

/-- The binding table of a BINDINGS body, with the number of records set to their power-on values (R175): a
record with a field outside its values is set as a whole, and counts once (DESIGN CHOICE, log 72); a missing byte is
read as 0 (DESIGN CHOICE, log 78). -/
def parseBindings (p : List Byte) : Mem Binding × Nat :=
  let rs := (List.range 64).map (fun i => listedOr (parseBinding (p.drop (12 * i))) (Mem.get {} defaultBindings i))
  (Mem.setMany {} [] 0 (rs.map (·.1)), (rs.map (·.2)).sum)

/-! ## The record header (R200) -/

/-- The kind and number of a directory key: PRESET n at n, GLOBALS at 256, BINDINGS at 257. -/
def keyBytes (key : Nat) : List Byte := if key < 256 then [1, b8 key] else if key = 256 then [2, 0] else [3, 0]

/-- The first eight bytes of a record, with marker WRITING. -/
def headerBytes (key gen len : Nat) : List Byte := [0xFE] ++ keyBytes key ++ bytes24 gen ++ bytes16 len

end Sys2Proof.Machine
end

