-- ==== Sys2Proof/Machine/Flags.lean ====
section
/-! DEFINITION. The sets of two-valued state and what a change of them does: the flags F0..F7 (R126), the output bus
mute set (R58), and the bypass condition set with the bypass relay (R184, R185). -/

namespace Sys2Proof.Machine

/-! ## Flags F0..F7 -/

/-- An operation over the masked flags among F0..F5; F6 and F7 in the mask are ignored (R126). -/
def FlagOp.apply (op : FlagOp) (mask flags : Byte) : Byte :=
  let m := mask &&& 0x3F
  match op with
  | .set => flags ||| m
  | .clear => flags &&& ~~~m
  | .toggle => flags ^^^ m

/-- Set or clear F6, the mirror of the tune mode (R96). -/
def setF6 (on : Bool) (s : State) : State :=
  { s with swc := { s.swc with flags := if on then s.swc.flags ||| 0x40 else s.swc.flags &&& 0xBF } }

/-- Set or clear F7, the mirror of the follower's lock (R106). -/
def setF7 (on : Bool) (s : State) : State :=
  { s with swc := { s.swc with flags := if on then s.swc.flags ||| 0x80 else s.swc.flags &&& 0x7F } }

/-! ## The output bus mute set -/

/-- Does the set hold any reason (R58)? -/
def MuteSet.any (m : MuteSet) : Bool := m.tune || m.bypass || m.start || m.clock

/-- The target the mute set gives the output bus mute ramp (R58). -/
def MuteSet.target (m : MuteSet) : Int := if m.any then 0 else unity

/-- Change the mute set: the ramp is restarted toward a new target over 256 samples, and set to 0 at once when CLOCK is
added; adding BYPASS owes a bus-muted notice, which removing it withdraws (R58, R12). -/
def changeMute (f : MuteSet → MuteSet) (s : State) : State :=
  let old := s.tne.mute
  let new := f old
  let ramp :=
    if new.clock && !old.clock then Ramp.at 0
    else if new.target = s.tne.muteRamp.target then s.tne.muteRamp
    else s.tne.muteRamp.restart new.target 256
  let notice := new.bypass && (s.tne.busNotice || !old.bypass)
  { s with tne := { s.tne with mute := new, muteRamp := ramp, busNotice := notice } }

/-! ## The bypass condition set and the bypass relay -/

/-- Is any condition in the set (R184)? -/
def Conds.any (c : Conds) : Bool := c.clockDown || c.scanning || c.supplyLow || c.manual || c.starting

/-- Is a condition other than MANUAL in the set? -/
def Conds.other (c : Conds) : Bool := c.clockDown || c.scanning || c.supplyLow || c.starting

/-- Is the relay energized in this phase (R185)? -/
def RelayPhase.energized : RelayPhase → Bool
  | .circuit => true
  | .muting => true
  | .out => false

/-- Post BYPASS_STATE as the driver stands (R187). -/
def postBypass (s : State) : State :=
  post (.bypassState s.acd.relay.energized s.acd.relay s.acd.conds s.acd.manual) s

/-- Move the bypass relay to a phase. -/
def setRelay (p : RelayPhase) (s : State) : State := { s with acd := { s.acd with relay := p } }

/-- Change the condition set, and let R185 act on the relay by its phase. -/
def changeConds (f : Conds → Conds) (s : State) : State :=
  let new := f s.acd.conds
  let s := { s with acd := { s.acd with conds := new } }
  match s.acd.relay with
  | .circuit =>
    if new.other then postBypass (setRelay .out s)
    else if new.manual then setRelay .muting (changeMute (fun m => { m with bypass := true }) s)
    else s
  | .muting =>
    if new.other then postBypass (setRelay .out s)
    else if new.manual then s
    else setRelay .circuit (changeMute (fun m => { m with bypass := false }) s)
  | .out =>
    if new.any then s
    else postBypass (setRelay .circuit (changeMute (fun m => { m with bypass := false }) s))

/-- The manual bypass operation of a BYPASS request or action (R186): a change of the flag begins or ends MANUAL and
posts BYPASS_STATE. -/
def manualBypass (op : OnOff) (s : State) : State :=
  let new := op.apply s.acd.manual
  if new = s.acd.manual then s
  else postBypass (changeConds (fun c => { c with manual := new }) { s with acd := { s.acd with manual := new } })

end Sys2Proof.Machine
end

