-- ==== Sys2Proof/Machine/Slots.lean ====
section
/-! DEFINITION. What moves a slot: THRU, delay targets, parameter ramps, discrete changes, bypass and engage, scene
values, the controller map, and the setting up of a chain (R30, R33, R37, R41, R44, R48 to R57, R110). -/

namespace Sys2Proof.Machine

/-! ## Model tables -/

/-- Is curve `i` ABSENT (R45)? -/
def curveAbsent (t : Tne) (i : Int) : Bool := (Mem.get {} t.curves i.toNat).current.isNone

/-- Is filter set `i` ABSENT (R45)? -/
def filterAbsent (t : Tne) (i : Int) : Bool := (Mem.get {} t.filters i.toNat).current.isNone

/-- Does a running selection of the slot name an ABSENT table (R37)? -/
def tableMissing (t : Tne) (sl : Slot) : Bool :=
  match sl.kind with
  | .drive => curveAbsent t (sl.run.getD 1 0)
  | .amp => curveAbsent t (sl.run.getD 1 0) || filterAbsent t (sl.run.getD 2 0)
  | .cab => filterAbsent t (sl.run.getD 0 0)
  | .eq => filterAbsent t (sl.run.getD 0 0)
  | _ => false

/-- Is the slot's region too small for it to run (R40, R41, R42)? -/
def regionShort (m : Lma) (sl : Slot) : Bool :=
  match sl.kind with
  | .mod => decide ((regionPages m sl.voice.region).length = 0)
  | .delay => decide ((regionPages m sl.voice.region).length = 0)
  | .reverb => decide ((regionPages m sl.voice.region).length < 10)
  | _ => false

/-- Does the slot run as THRU (R37)? -/
def slotThru (t : Tne) (m : Lma) (sl : Slot) : Bool := tableMissing t sl || regionShort m sl

/-- Does a running selection of the slot name the table (R46)? -/
def namesTable (r : TableRef) (sl : Slot) : Bool :=
  match r, sl.kind with
  | .curve i, .drive => decide (sl.run.getD 1 0 = i)
  | .curve i, .amp => decide (sl.run.getD 1 0 = i)
  | .filterSet i, .amp => decide (sl.run.getD 2 0 = i)
  | .filterSet i, .cab => decide (sl.run.getD 0 0 = i)
  | .filterSet i, .eq => decide (sl.run.getD 0 0 = i)
  | _, _ => false

/-! ## Parameters -/

/-- The index of the mix parameter of a kind (R36). -/
def Kind.mixIndex : Kind → Option Nat
  | .mod => some 2
  | .delay => some 4
  | .reverb => some 1
  | _ => none

/-- The running tail hold of a slot in samples (R36, R50, R70). -/
def holdSamples (sl : Slot) : Nat :=
  match sl.kind with
  | .delay => (sl.run.getD 5 0).toNat * 48
  | .reverb => (sl.run.getD 2 0).toNat * 48
  | _ => 0

/-- The running mix of a slot. -/
def runMix (sl : Slot) : Int :=
  match sl.kind.mixIndex with
  | some i => sl.run.getD i 0
  | none => 0

/-- The wet gain of a mix (R36). -/
def wetGain (mix : Int) : Int := mix * 8

/-- The dry gain of a mix (R36). -/
def dryGain (mix : Int) : Int := (1023 - mix) * 8

/-- The synced length of a division code (R110). -/
def syncLength (beat : Nat) (code : Int) : Int :=
  match code with
  | 1 => (beat : Int)
  | 2 => (beat : Int) * 3 / 4
  | 3 => (beat : Int) / 2
  | 4 => (beat : Int) / 3
  | 5 => (beat : Int) / 4
  | _ => (beat : Int) * 2

/-- A delay clamped to 1..L − 1 (R30). A slot whose region is not granted has L = 0 and no such delay, and its ramp's target is
then 1 (DESIGN CHOICE, log 85). -/
def clampDelay (len : Nat) (d : Int) : Int := clampInt 1 (max 1 ((len : Int) - 1)) d

/-- The delay a DELAY slot asks for: time × 48 with sync 0, else the synced length (R41). -/
def delayAsked (beat : Nat) (run : List Int) : Int :=
  if run.getD 1 0 = 0 then run.getD 0 0 * 48 else syncLength beat (run.getD 1 0)

/-- The target of a DELAY slot's delay ramp: the delay it asks for, clamped (R30, R41). -/
def delayTarget (beat len : Nat) (run : List Int) : Int := clampDelay len (delayAsked beat run)

/-- Restart a slot's dry and wet ramps toward its running mix (R33). -/
def moveMix (len : Nat) (sl : Slot) : Slot :=
  { sl with voice := { sl.voice with
      dry := sl.voice.dry.restart (dryGain (runMix sl)) len
      wet := sl.voice.wet.restart (wetGain (runMix sl)) len } }

/-- Restart ramp `a` of a slot. -/
def moveA (target : Int) (len : Nat) (sl : Slot) : Slot :=
  { sl with voice := { sl.voice with a := sl.voice.a.restart target len } }

/-- Restart ramp `b` of a slot. -/
def moveB (target : Int) (len : Nat) (sl : Slot) : Slot :=
  { sl with voice := { sl.voice with b := sl.voice.b.restart target len } }

/-- Write a running value. -/
def setRun (i : Nat) (v : Int) (sl : Slot) : Slot := { sl with run := sl.run.set i v }

/-- A change of a C-class parameter: its running value, and the restart of its ramp over `len`; a delay time always
over 512 and only with sync 0, and a mix only while ENGAGED, else it is stored for the engage to take up (R30, R33, R41,
R50, R52). `granted` is the region's granted length. -/
def moveParam (beat granted : Nat) (i : Nat) (v : Int) (len : Nat) (sl : Slot) : Slot :=
  let sl := setRun i v sl
  match sl.kind, i with
  | .trim, _ => moveA (v * 32) len sl
  | .gate, _ => moveA v len sl
  | .drive, 0 => moveA (v * 32) len sl
  | .drive, _ => moveB (v * 32) len sl
  | .amp, 0 => moveA (v * 32) len sl
  | .amp, _ => moveB (v * 32) len sl
  | .cab, _ => moveB (v * 32) len sl
  | .eq, _ => moveB (v * 32) len sl
  | .level, _ => moveB (v * 32) len sl
  | .loop, 0 => moveA (v * 32) len sl
  | .loop, _ => moveB (v * 32) len sl
  | .mod, 0 => moveA v len sl
  | .mod, 1 => moveB v len sl
  | .delay, 0 => if sl.run.getD 1 0 = 0 then moveA (delayTarget beat granted sl.run) 512 sl else sl
  | .delay, 3 => moveB (v * 8) len sl
  | .reverb, 0 => moveB (4096 + v * 4) len sl
  | _, _ => if sl.bypass = .engaged then moveMix len sl else { sl with mixStored := true }

/-- The value pending for a D-class parameter on the slot's list, or its running value (R44). -/
def pendingValue (sl : Slot) (i : Nat) : Int :=
  sl.changes.foldl (fun x c => match c with | .param j v => if j = i then v else x | .table _ => x) (sl.run.getD i 0)

/-- A discrete change joins the pending list, unless it leaves the parameter as it stands (R44). -/
def putChange (i : Nat) (v : Int) (sl : Slot) : Slot :=
  if pendingValue sl i = v then sl else { sl with changes := sl.changes ++ [.param i v] }

/-- A parameter change by class: a ramp over `len`, a discrete change, or a direct write (R36, R51, R52). -/
def changeParam (beat granted : Nat) (i : Nat) (v : Int) (len : Nat) (sl : Slot) : Slot :=
  match sl.kind.cls i with
  | some .continuous => moveParam beat granted i v len sl
  | some .discrete => putChange i v sl
  | some .setting => setRun i v sl
  | none => sl

/-! ## Bypass and engage (R50) -/

/-- A request to bypass the slot. A wet or engage ramp that still moves as the slot becomes TRAILING runs on to its target
(DESIGN CHOICE, log 69). -/
def bypassSlot (sl : Slot) : Slot :=
  match sl.bypass with
  | .engaged =>
    if sl.trail && sl.kind.spills then
      { sl with
        bypass := .trailing
        hold := holdSamples sl
        falling := false
        voice := { sl.voice with input := sl.voice.input.restart 0 256, dry := sl.voice.dry.restart unity 256 } }
    else { sl with bypass := .bypassed, engage := sl.engage.restart 0 256 }
  | .bypassed => sl
  | .trailing => sl

/-- A request to engage the slot (R50). From BYPASSED the engage ramp alone is restarted, and the mix gains only to take up a
mix that arrived meanwhile, over the engage's 256 samples (DEDUCED, log 23). -/
def engageSlot (sl : Slot) : Slot :=
  match sl.bypass with
  | .engaged => sl
  | .bypassed =>
    let sl' := { sl with bypass := .engaged, engage := sl.engage.restart unity 256, mixStored := false }
    if sl.mixStored then moveMix 256 sl' else sl'
  | .trailing =>
    moveMix 256
      { sl with
        bypass := .engaged
        hold := 0
        falling := false
        mixStored := false
        voice := { sl.voice with input := sl.voice.input.restart unity 256 } }

/-- Bypass (`true`) or engage (`false`) the slot. -/
def setBypass (bypassed : Bool) (sl : Slot) : Slot := if bypassed then bypassSlot sl else engageSlot sl

/-- The state an ON, OFF or TOGGLE asks for: bypassed or not (R53). -/
def bypassAsked (op : OnOff) (sl : Slot) : Bool :=
  match op with
  | .on => true
  | .off => false
  | .toggle => decide (sl.bypass = .engaged)

/-! ## Scenes and the controller map -/

/-- The scene value of a parameter: the last override of the scene for it, else the parameter set's value; in range
(R48). -/
def sceneValue (sc : Scene) (slot i : Nat) (sl : Slot) : Int :=
  match findLast (fun o : Override => o.slot == slot && o.param == i) sc.overrides with
  | some o => sl.kind.clamp i o.value
  | none => sl.kind.clamp i (sl.params.getD i 0)

/-- Is the slot bypassed in the scene (R49)? -/
def sceneBypassed (sc : Scene) (slot : Nat) (sl : Slot) : Bool := xor sl.defBypass (sc.bypass.getLsbD slot)

/-- The place of the n-th slot of a kind in chain order, n from 1 (R53, R56). -/
def nthOfKind (k : Kind) : Nat → Nat → List Slot → Option Nat
  | _, _, [] => none
  | n, i, sl :: t =>
    if sl.kind = k then (if n = 1 then some i else nthOfKind k (n - 1) (i + 1) t) else nthOfKind k n (i + 1) t

/-- Where a source value stands: CC n at n, P0 at 120, P1 at 121. -/
def MapSource.key : MapSource → Nat
  | .cc n => n
  | .p0 => 120
  | .p1 => 121

/-- The value a source value gives an entry's target (R56). -/
def MapEntry.value (e : MapEntry) (v : Nat) : Int := e.kind.clamp e.param (e.min + (e.max - e.min) * v / 1023)

/-- The entries whose source has a value, with that value, in index order (R56, R57). -/
def liveEntries (t : Tne) : List (MapEntry × Nat) :=
  (List.range 8).filterMap (fun i =>
    match Mem.get none t.ctrlMap i with
    | none => none
    | some e => (Mem.get none t.sources e.source.key).map (fun v => (e, v)))

/-- Does an entry resolve to a slot's parameter in a chain (R57)? -/
def MapEntry.hits (e : MapEntry) (slots : List Slot) (slot i : Nat) : Bool :=
  e.param == i && nthOfKind e.kind e.occ 0 slots == some slot

/-- The value the controller map gives a parameter, if it is held by the map (R57). -/
def mapHolds (t : Tne) (slots : List Slot) (slot i : Nat) : Option Int :=
  (findLast (fun e : MapEntry × Nat => e.1.hits slots slot i) (liveEntries t)).map (fun e => e.1.value e.2)

/-- Apply an entry to a chain's slots with a ramp length: the target's ramp is restarted toward the entry's value (R56). -/
def applyEntry (m : Lma) (beat len : Nat) (e : MapEntry) (v : Nat) (slots : List Slot) : List Slot :=
  match nthOfKind e.kind e.occ 0 slots with
  | none => slots
  | some k => modAt slots k (fun sl => moveParam beat (regionLen m sl.voice.region) e.param (e.value v) len sl)

/-! ## Setting up a chain (R48) -/

/-- A slot with its C-class ramps, mix gains, input gain and engage ramp at the values of its running values and
bypass state, all with count 0 (R48). -/
def settleSlot (beat granted : Nat) (bypassed : Bool) (sl : Slot) : Slot :=
  let p := sl.run.getD 0 0
  let voice : Voice :=
    { sl.voice with
      input := Ramp.at unity
      dry := Ramp.at (dryGain (runMix sl))
      wet := Ramp.at (wetGain (runMix sl))
      a := match sl.kind with
        | .trim => Ramp.at (p * 32)
        | .gate => Ramp.at p
        | .drive => Ramp.at (p * 32)
        | .amp => Ramp.at (p * 32)
        | .mod => Ramp.at p
        | .delay => Ramp.at (delayTarget beat granted sl.run)
        | .loop => Ramp.at (p * 32)
        | _ => Ramp.at 0
      b := match sl.kind with
        | .gate => Ramp.at unity
        | .drive => Ramp.at (sl.run.getD 2 0 * 32)
        | .amp => Ramp.at (sl.run.getD 3 0 * 32)
        | .cab => Ramp.at (sl.run.getD 1 0 * 32)
        | .eq => Ramp.at (sl.run.getD 1 0 * 32)
        | .mod => Ramp.at (sl.run.getD 1 0)
        | .delay => Ramp.at (sl.run.getD 3 0 * 8)
        | .reverb => Ramp.at (4096 + p * 4)
        | .loop => Ramp.at (sl.run.getD 1 0 * 32)
        | .level => Ramp.at (p * 32)
        | .trim => Ramp.at 0 }
  { sl with
    voice := voice
    dip := Ramp.at unity
    dipPhase := .none
    changes := []
    engage := Ramp.at (if bypassed then 0 else unity)
    bypass := if bypassed then .bypassed else .engaged
    hold := 0
    falling := false
    mixStored := false
    hist := []
    gateOpen := true
    quiet := 0
    lfo := 0
    stub := false }

/-- A slot set up for a scene: its running values are the scene values, or the controller map's where it holds the
parameter (R48, R57). -/
def setupSlot (t : Tne) (m : Lma) (beat : Nat) (slots : List Slot) (sc : Scene) (k : Nat) (sl : Slot) : Slot :=
  let run := (List.range sl.kind.count).map (fun i => (mapHolds t slots k i).getD (sceneValue sc k i sl))
  let sl := settleSlot beat (regionLen m sl.voice.region) (sceneBypassed sc k sl) { sl with run := run }
  { sl with thru := slotThru t m sl }

/-- A chain set up for a scene, scene 0 where it holds no such scene (R48). -/
def setupChain (t : Tne) (m : Lma) (beat scene : Nat) (c : Chain) : Chain :=
  let n := if scene < c.scenes.length then scene else 0
  let sc := c.scenes.getD n {}
  { c with
    slots := c.slots.mapIdx (fun k sl => setupSlot t m beat c.slots sc k sl)
    scene := n }

/-- Apply a scene the buffer holds to a buffer's slots (R51). -/
def applySceneSlot (t : Tne) (m : Lma) (beat : Nat) (slots : List Slot) (sc : Scene) (k : Nat) (sl : Slot) : Slot :=
  let moved := (List.range sl.kind.count).foldl (fun x i =>
    if sl.kind.cls i = some .continuous ∧ (mapHolds t slots k i).isSome then x
    else changeParam beat (regionLen m sl.voice.region) i (sceneValue sc k i sl) sc.ramp x) sl
  setBypass (sceneBypassed sc k sl) moved

/-- Apply a scene to a chain: its slots and the current scene (R51). -/
def applySceneChain (t : Tne) (m : Lma) (beat scene : Nat) (c : Chain) : Chain :=
  { c with
    slots := c.slots.mapIdx (fun k sl => applySceneSlot t m beat c.slots (c.scenes.getD scene {}) k sl)
    scene := scene }

/-- Apply a scene to a buffer of the state (R51). -/
def applyScene (bid : BufId) (scene : Nat) (s : State) : State :=
  modChain bid (applySceneChain s.tne s.lma s.tmp.beat scene) s

/-- Set a buffer up again for a scene (R48, R142). -/
def setupAgain (bid : BufId) (scene : Nat) (s : State) : State :=
  modChain bid (setupChain s.tne s.lma s.tmp.beat scene) s

/-- Apply each of the live entries a predicate picks to a chain, in index order (R56). -/
def applyEntries (pick : MapEntry → Bool) (len : Nat) (s : State) (c : Chain) : Chain :=
  let slots := (liveEntries s.tne).foldl
    (fun slots e => if pick e.1 then applyEntry s.lma s.tmp.beat len e.1 e.2 slots else slots) c.slots
  { c with slots := slots }

/-- Apply every live entry of one source to the buffer edits reach (R56). -/
def applySource (key : Nat) (s : State) : State :=
  match editBuf s with
  | none => s
  | some bid => modChain bid (applyEntries (fun e => decide (e.source.key = key)) 128 s) s

/-- Apply every live entry to the chain that has just become ACTIVE, with length 0 (R57). -/
def applyMapAtSwap (bid : BufId) (s : State) : State := modChain bid (applyEntries (fun _ => true) 0 s) s

/-- Decide THRU again for every slot of a buffer (R46). -/
def decideThru (bid : BufId) (s : State) : State :=
  modSlots bid (fun sl => { sl with thru := slotThru s.tne s.lma sl }) s

/-- The beat-length notice at one slot: a DELAY slot whose sync is 1..6 takes its new target over 512 samples (R110). -/
def noticeSlot (l : Lma) (beat : Nat) (sl : Slot) : Slot :=
  if sl.kind = .delay ∧ (1 ≤ sl.run.getD 1 0 ∧ sl.run.getD 1 0 ≤ 6) ∧ sl.stub = false then
    moveA (delayTarget beat (regionLen l sl.voice.region) sl.run) 512 sl
  else sl

/-- The beat-length notice in a buffer: it reaches every slot of one that is not EMPTY (R110). -/
def noticeBuffer (l : Lma) (beat : Nat) (b : Buffer) : Buffer :=
  if b.state = .empty then b else { b with chain := { b.chain with slots := b.chain.slots.map (noticeSlot l beat) } }

/-- The beat-length notice: both buffers and no tail (R110, R73). -/
def beatNotice (s : State) : State :=
  let notice := noticeBuffer s.lma s.tmp.beat
  { s with tne := { s.tne with bufA := notice s.tne.bufA, bufB := notice s.tne.bufB } }

/-! ## Dips (R44) -/

/-- Start a slot's dip: the ramp toward 0 over 64 samples, phase DOWN. -/
def startDip (sl : Slot) : Slot := { sl with dip := sl.dip.restart 0 64, dipPhase := .down }

/-- At a block boundary a pending change starts a dip, but in DOWN, where it joins the switch point to come (R44). -/
def boundaryDip (sl : Slot) : Slot :=
  if sl.changes = [] ∨ sl.dipPhase = .down then sl else startDip sl

/-- Does a slot use a filter set? -/
def usesFilter (sl : Slot) : Bool :=
  match sl.kind with
  | .amp => true
  | .cab => true
  | .eq => true
  | _ => false

/-- One pending change takes effect: a D-class running value, with the delay target where it is a DELAY's sync (R41). -/
def takeChange (beat granted : Nat) (c : SlotChange) (sl : Slot) : Slot :=
  match c with
  | .table _ => sl
  | .param i v =>
    let sl := setRun i v sl
    if sl.kind = .delay then moveA (delayTarget beat granted sl.run) 512 sl else sl

/-- The switch point of a slot: its pending changes take effect in order, its histories are 0, and THRU is decided
again (R44). -/
def takeChanges (t : Tne) (m : Lma) (beat : Nat) (sl : Slot) : Slot :=
  let sl' := sl.changes.foldl (fun x c => takeChange beat (regionLen m sl.voice.region) c x) { sl with changes := [] }
  let sl' := if usesFilter sl then { sl' with hist := [] } else sl'
  { sl' with thru := slotThru t m sl' }

end Sys2Proof.Machine
end

