-- ==== Sys2Proof/Machine/Lanes.lean ====
section
/-! DEFINITION. The lanes: gain targets, dips, the tune override, the relay-mute gain, and what loss and return of the
clock and the scan do to them (R1, R2, R6 to R10, R13). -/

namespace Sys2Proof.Machine

/-- Set the Audio Port. -/
def withAup (f : Aup → Aup) (s : State) : State := { s with aup := f s.aup }

/-- The gain target a trim and a mute give (R6). -/
def gainTarget (trim : Nat) (mute : Bool) : Int := if mute then 0 else trim

/-- The gain target of an input lane. -/
def InLane.target (l : InLane) : Int := gainTarget l.cfg.trim l.cfg.mute

/-- The gain target of an output lane. -/
def OutLane.target (l : OutLane) : Int := gainTarget l.cfg.trim l.cfg.mute

/-- A gain ramp after a change of trim or mute, by the dip phase (R6): with no dip a new target restarts it over 256; in
DOWN it is left to the switch point; in UP the rise goes on to the new target (DESIGN CHOICE, log 7). -/
def retarget (dip : DipPhase) (target : Int) (g : Ramp) : Ramp :=
  match dip with
  | .none => if target = g.target then g else g.restart target 256
  | .down => g
  | .up => if g.count = 0 then (if target = g.target then g else g.restart target 256) else { g with target := target }

/-- A change of a dip-type field: the pending value it leaves, and whether a dip has to be running for it (R7). -/
def putPend {β : Type} [DecidableEq β] (value : β) (pend : Option β) (new : β) : Option β :=
  match pend with
  | some _ => some new
  | none => if new = value then none else some new

/-- Start a dip for a change that has just become pending; in DOWN it joins the dip in progress (R7). -/
def InLane.dipFor (l : InLane) : InLane :=
  if l.dip = .down then l else { l with gain := l.gain.restart 0 64, dip := .down }

/-- See `InLane.dipFor`. -/
def OutLane.dipFor (l : OutLane) : OutLane :=
  if l.dip = .down then l else { l with gain := l.gain.restart 0 64, dip := .down }

/-- A change of polarity of an input lane. -/
def InLane.putInverted (v : Bool) (l : InLane) : InLane :=
  let p := putPend l.inverted l.pendInverted v
  if p = l.pendInverted then l else { l.dipFor with pendInverted := p }

/-- A change of the loopback source of an input lane. -/
def InLane.putLoopback (v : Nat) (l : InLane) : InLane :=
  let p := putPend l.loopback l.pendLoopback v
  if p = l.pendLoopback then l else { l.dipFor with pendLoopback := p }

/-- A change of polarity of an output lane. -/
def OutLane.putInverted (v : Bool) (l : OutLane) : OutLane :=
  let p := putPend l.inverted l.pendInverted v
  if p = l.pendInverted then l else { l.dipFor with pendInverted := p }

/-- A change of the effective source of an output lane. -/
def OutLane.putSource (v : Source) (l : OutLane) : OutLane :=
  let p := putPend l.source l.pendSource v
  if p = l.pendSource then l else { l.dipFor with pendSource := p }

/-- The effective source an output lane's record asks for, under the tune override (R8). -/
def wantedSource (override : Bool) (lane : Nat) (cfg : OutRec) : Source :=
  if override && decide (lane ≤ 4) then .dry else cfg.source

/-- An input lane takes a new record: the ramps and dips of what changes start (R6, R7). -/
def InLane.take (cfg : InRec) (l : InLane) : InLane :=
  let l := { l with cfg := cfg }
  let l := { l with gain := retarget l.dip l.target l.gain, dip := if l.dip = DipPhase.up ∧ l.gain.count = 0 then DipPhase.none else l.dip }
  (l.putInverted cfg.inverted).putLoopback cfg.loopback

/-- An output lane takes a new record (R6, R7, R8). -/
def OutLane.take (override : Bool) (lane : Nat) (cfg : OutRec) (l : OutLane) : OutLane :=
  let l := { l with cfg := cfg }
  let l := { l with gain := retarget l.dip l.target l.gain, dip := if l.dip = DipPhase.up ∧ l.gain.count = 0 then DipPhase.none else l.dip }
  (l.putInverted cfg.inverted).putSource (wantedSource override lane cfg)

/-- The switch point of an input lane's dip (R7). -/
def InLane.switchPoint (l : InLane) : InLane :=
  { l with
    inverted := l.pendInverted.getD l.inverted
    loopback := l.pendLoopback.getD l.loopback
    pendInverted := none
    pendLoopback := none
    gain := l.gain.restart l.target 64
    dip := .up }

/-- The switch point of an output lane's dip (R7). -/
def OutLane.switchPoint (l : OutLane) : OutLane :=
  { l with
    inverted := l.pendInverted.getD l.inverted
    source := l.pendSource.getD l.source
    pendInverted := none
    pendSource := none
    gain := l.gain.restart l.target 64
    dip := .up }

/-- Every movement of an input lane finished: dip complete, ramp at its target (R13). -/
def InLane.finish (l : InLane) : InLane :=
  { l with
    inverted := l.pendInverted.getD l.inverted
    loopback := l.pendLoopback.getD l.loopback
    pendInverted := none
    pendLoopback := none
    gain := Ramp.at l.target
    dip := .none }

/-- Every movement of an output lane finished (R13). -/
def OutLane.finish (l : OutLane) : OutLane :=
  { l with
    inverted := l.pendInverted.getD l.inverted
    source := l.pendSource.getD l.source
    pendInverted := none
    pendSource := none
    gain := Ramp.at l.target
    dip := .none }

/-- An input lane's switch point is due. -/
def InLane.switchDue (l : InLane) : Bool := decide (l.dip = .down ∧ l.gain.count = 0)

/-- An output lane's switch point is due. -/
def OutLane.switchDue (l : OutLane) : Bool := decide (l.dip = .down ∧ l.gain.count = 0)

/-- The end of an input lane's dip is due. -/
def InLane.endDue (l : InLane) : Bool := decide (l.dip = .up ∧ l.gain.count = 0)

/-- The end of an output lane's dip is due. -/
def OutLane.endDue (l : OutLane) : Bool := decide (l.dip = .up ∧ l.gain.count = 0)

/-- Turn the tune override on or off: lanes 1..4 take the source they then want, inside dips (R8). -/
def setOverride (on : Bool) (s : State) : State :=
  if on = s.aup.override then s
  else
    forAll [1, 2, 3, 4] (fun k => modOutLane k (fun l => l.putSource (wantedSource on k l.cfg)))
      (withAup (fun a => { a with override := on }) s)

/-- Every input lane. -/
def allIn (f : InLane → InLane) (s : State) : State := forAll lanes (fun k => modInLane k f) s

/-- Every output lane. -/
def allOut (f : OutLane → OutLane) (s : State) : State := forAll lanes (fun k => modOutLane k f) s

/-- An input lane record of GLOBALS replaces the lane's at once (R1). -/
def InLane.replace (cfg : InRec) (l : InLane) : InLane :=
  { l with
    cfg := cfg, inverted := cfg.inverted, loopback := cfg.loopback, pendInverted := none, pendLoopback := none
    gain := Ramp.at (gainTarget cfg.trim cfg.mute), dip := .none }

/-- An output lane record of GLOBALS replaces the lane's at once (R2). -/
def OutLane.replace (override : Bool) (lane : Nat) (cfg : OutRec) (l : OutLane) : OutLane :=
  { l with
    cfg := cfg, inverted := cfg.inverted, source := wantedSource override lane cfg, pendInverted := none
    pendSource := none, gain := Ramp.at (gainTarget cfg.trim cfg.mute), dip := .none }

/-! ## The relay-mute gain (R10) -/

/-- The Accessory Driver asks for DOWN or UP of the relay-mute gain; a completion is owed for the latest request. -/
def relayMuteTo (target : Int) (s : State) : State :=
  withAup (fun a => { a with relayMute := a.relayMute.restart target 128, relayOwed := true }) s

/-- The completion of the relay-mute gain is due. -/
def relayMuteDue (s : State) : Bool := s.aup.relayOwed && decide (s.aup.relayMute.count = 0)

/-! ## The reference tone (R16) -/

/-- Entries 0..64 of the tone table: floor(2,097,152 × sin(2πk / 256) + 0.5), a quarter of the sine. -/
def quarterWave : List Int :=
  [0, 51467, 102902, 154276, 205557, 256714, 307716, 358533, 409134, 459489, 509566] ++
  [559337, 608771, 657838, 706509, 754755, 802545, 849853, 896648, 942903, 988591, 1033682] ++
  [1078152, 1121971, 1165115, 1207557, 1249272, 1290234, 1330419, 1369803, 1408361, 1446071, 1482910] ++
  [1518856, 1553887, 1587982, 1621120, 1653282, 1684448, 1714600, 1743718, 1771786, 1798787, 1824705] ++
  [1849523, 1873227, 1895803, 1917237, 1937516, 1956628, 1974561, 1991305, 2006849, 2021185, 2034303] ++
  [2046196, 2056856, 2066277, 2074453, 2081380, 2087054, 2091470, 2094626, 2096520, 2097152]

/-- Entry `k` of the tone table, 0..255, by the symmetry of the sine. No entry lies halfway between two integers, so the
rounding of a negative entry is the negation of the positive one's. -/
def toneEntry (k : Nat) : Int :=
  if k ≤ 64 then quarterWave.getD k 0
  else if k ≤ 128 then quarterWave.getD (128 - k) 0
  else if k ≤ 192 then -quarterWave.getD (k - 128) 0
  else -quarterWave.getD (256 - k) 0

/-- The TONE sample of a phase: the entry of its top eight bits. -/
def toneSample (phase : Phase) : Int := toneEntry (phase.toNat / 16777216)

/-- The phase increment of a reference pitch. -/
def toneStep (ref : Nat) : Phase := BitVec.ofNat 32 (ref * 4294967296 / 480000)

end Sys2Proof.Machine
end

