-- ==== Sys2Proof/Machine/Accessory.lean ====
section
/-! DEFINITION. The Accessory Driver: relay sets, mute windows, the relay supply (chapter 10; the bypass relay is in
`Flags.lean`). -/

namespace Sys2Proof.Machine

/-- Set the Accessory Driver. -/
def withAcd (f : Acd → Acd) (s : State) : State := { s with acd := f s.acd }

/-! ## The driven outputs (R176) -/

/-- The loop relays that are energized, bit k − 1 for relay k: those switched IN, and none with the drive OFF. -/
def Acd.loopLines (a : Acd) : BitVec 8 := if a.drive then a.switched.loops else 0

/-- The amp lines that are closed, bit k − 1 for line k: those switched CLOSED, and none with the drive OFF. -/
def Acd.ampLines (a : Acd) : BitVec 4 := if a.drive then a.switched.amps else 0

/-! ## Changes of relays and lines -/

/-- Do the changes name nothing? -/
def Changes.none (c : Changes) : Bool := decide (c.loopMask = 0 ∧ c.ampMask = 0)

/-- The states of the loop relays once the changes are switched over a set. -/
def Changes.overLoops (c : Changes) (loops : BitVec 8) : BitVec 8 := (loops &&& ~~~c.loopMask) ||| (c.loops &&& c.loopMask)

/-- The states of the amp lines once the changes are switched over a set. -/
def Changes.overAmps (c : Changes) (amps : BitVec 4) : BitVec 4 := (amps &&& ~~~c.ampMask) ||| (c.amps &&& c.ampMask)

/-- The relays of a mask join, or take their latest state (R177). -/
def Changes.addLoops (mask states : BitVec 8) (c : Changes) : Changes :=
  { c with loopMask := c.loopMask ||| mask, loops := (c.loops &&& ~~~mask) ||| (states &&& mask) }

/-- Amp lines that differ from the switched set join; those waiting take their latest state (R180). -/
def Changes.addAmps (switched amps : BitVec 4) (c : Changes) : Changes :=
  { c with ampMask := c.ampMask ||| (amps ^^^ switched), amps := amps }

/-- Does the next set hold changes or a restoration (R178, R180)? -/
def NextSet.holds (n : NextSet) : Bool := !n.changes.none || n.restoration

/-! ## Windows (R178) -/

/-- Start a window: DOWN is asked of the relay-mute gain. -/
def startWindow (pending : Changes) (restoration : Bool) (owed : List Nat) (s : State) : State :=
  relayMuteTo 0
    (withAcd (fun a => { a with window := some { pending := pending, restoration := restoration, owed := owed } }) s)

/-- The states of the loop relays with every change that waits for a switch step. -/
def waitingLoops (a : Acd) : BitVec 8 :=
  a.next.changes.overLoops ((a.window.getD {}).pending.overLoops a.switched.loops)

/-- Place the loop relay changes of a handed set (R177). -/
def placeLoops (loops : BitVec 8) (s : State) : State :=
  let mask := loops ^^^ waitingLoops s.acd
  if mask = 0 then s
  else
    match s.acd.window with
    | none => startWindow (({} : Changes).addLoops mask loops) false [] s
    | some w =>
      match w.phase with
      | .down => withAcd (fun a => { a with window := some { w with pending := w.pending.addLoops mask loops } }) s
      | _ => withAcd (fun a => { a with next := { a.next with changes := a.next.changes.addLoops mask loops } }) s

/-- Place the amp line states of a handed set (R180). -/
def placeAmps (amps : BitVec 4) (s : State) : State :=
  let atOnce := withAcd (fun a => { a with switched := { a.switched with amps := amps } }) s
  match s.acd.window with
  | none => atOnce
  | some w =>
    match w.phase with
    | .down =>
      withAcd (fun a => { a with window := some { w with pending := w.pending.addAmps a.switched.amps amps } }) s
    | _ =>
      if s.acd.next.holds then
        withAcd (fun a => { a with next := { a.next with changes := a.next.changes.addAmps a.switched.amps amps } }) s
      else atOnce

/-- Owe a completion: with the next set when it will start a window, else with the window in progress; with neither it
is given at once (R179). -/
def oweCompletion (ticket : Nat) (s : State) : State × Bool :=
  if s.acd.next.holds then
    (withAcd (fun a => { a with next := { a.next with owed := a.next.owed ++ [ticket] } }) s, false)
  else
    match s.acd.window with
    | some w => (withAcd (fun a => { a with window := some { w with owed := w.owed ++ [ticket] } }) s, false)
    | none => (s, true)

/-- Hand a relay set to the driver (R177, R179, R180). The answer gives the set's number and whether its completion was
given at once. -/
def handRelaySet (r : RelaySet) (s : State) : State × Nat × Bool :=
  let ticket := s.acd.nextTicket
  let s := withAcd (fun a => { a with requested := r, nextTicket := ticket + 1 }) s
  let (s, done) := oweCompletion ticket (placeAmps r.amps (placeLoops r.loops s))
  (s, ticket, done)

/-- Hand a relay set, if there is one, without waiting for its completion. -/
def handAside (r : Option RelaySet) (s : State) : State :=
  match r with
  | none => s
  | some r => (handRelaySet r s).1

/-- The switch step (R178); the restoration flag stands on (DESIGN CHOICE, log 66). -/
def switchStep (w : Window) (s : State) : State :=
  withAcd (fun a => { a with
    switched := { loops := w.pending.overLoops a.switched.loops, amps := w.pending.overAmps a.switched.amps }
    drive := a.drive || a.supplyGood
    window := some { w with phase := .settle, pending := {}, settle := 0 } }) s

/-- The end of a window: its completions, and a new window from the next set (R178). -/
def windowEnd (w : Window) (s : State) : State × List Nat :=
  let next := s.acd.next
  let s := withAcd (fun a => { a with window := none }) s
  if next.holds then
    (startWindow next.changes next.restoration next.owed (withAcd (fun a => { a with next := {} }) s), w.owed)
  else (s, w.owed)

/-- The Audio Port's completion of DOWN or UP (R178). The answer gives the relay completions given. -/
def muteCompletion (s : State) : State × List Nat :=
  match s.acd.window with
  | none => (s, [])
  | some w =>
    match w.phase with
    | .down => (switchStep w s, [])
    | .settle => (s, [])
    | .up => windowEnd w s

/-- The settle is complete: UP is asked of the relay-mute gain (R178). -/
def settleDone (s : State) : State :=
  match s.acd.window with
  | none => s
  | some w => relayMuteTo unity (withAcd (fun a => { a with window := some { w with phase := .up } }) s)

/-- The settle count stands at 240. -/
def settleDue (s : State) : Bool :=
  match s.acd.window with
  | some w => decide (w.phase = .settle ∧ 240 ≤ w.settle)
  | none => false

/-- A sample period of the settle count. -/
def settleSample (a : Acd) : Acd :=
  match a.window with
  | some w => if w.phase = .settle then { a with window := some { w with settle := min 240 (w.settle + 1) } } else a
  | none => a

/-- At the clock-running notice a window in progress is finished at once (R181). -/
def finishWindow (s : State) : State × List Nat :=
  match s.acd.window with
  | none => (s, [])
  | some w => windowEnd w (if w.phase = .down then switchStep w s else s)

/-! ## The relay supply (R182, R183) -/

/-- The monitor enters LOW: the drive goes OFF and SUPPLY_LOW begins. -/
def supplyLow (s : State) : State :=
  let s := withAcd (fun a => { a with supplyGood := false, drive := false }) s
  changeConds (fun c => { c with supplyLow := true }) (post (.supplyState false) s)

/-- A restoration is asked for (R183). -/
def askRestoration (s : State) : State :=
  match s.acd.window with
  | none => startWindow {} true [] s
  | some w =>
    match w.phase with
    | .down => withAcd (fun a => { a with window := some { w with restoration := true } }) s
    | _ => withAcd (fun a => { a with next := { a.next with restoration := true } }) s

/-- The monitor enters GOOD: SUPPLY_LOW ends and a restoration is asked for. -/
def supplyGoodNow (s : State) : State :=
  let s := withAcd (fun a => { a with supplyGood := true, stability := false }) s
  askRestoration (changeConds (fun c => { c with supplyLow := false }) (post (.supplyState true) s))

end Sys2Proof.Machine
end

