-- ==== Sys2Proof/Machine/Beat.lean ====
section
/-! DEFINITION. The Tempo Unit: tempo and beat length in use, the tap series, the MIDI clock follower and the beat timer
(chapter 6). -/

namespace Sys2Proof.Machine

/-- Set the Tempo Unit. -/
def withTmp (f : Tmp → Tmp) (s : State) : State := { s with tmp := f s.tmp }

/-- A tempo brought into 400..3000 (R100). -/
def clampTempo (t : Nat) : Nat := clampNat 400 3000 t

/-- 28,800,000 divided by a tempo or a beat length, rounded to the nearest with halves up (R100, R101, R104). -/
def perBeat (x : Nat) : Nat := (28800000 + x / 2) / x

/-- The tempo of a beat length (R101). -/
def tempoOf (beat : Nat) : Nat := clampTempo (perBeat beat)

/-- Is the follower LOCKED? -/
def Tmp.isLocked (t : Tmp) : Bool := decide (t.follower.state = .locked)

/-- Where the tempo in use comes from (R101). -/
def Tmp.source (t : Tmp) : TempoFrom := if !t.midiSource then .internal else if t.isLocked then .midi else .held

/-- The tempo in use by R101's table. -/
def Tmp.tempoInUse (t : Tmp) : Nat :=
  match t.source with
  | .internal => t.internal
  | .midi => tempoOf t.follower.b
  | .held => t.heldTempo

/-- The beat length in use by R101's table. -/
def Tmp.beatInUse (t : Tmp) : Nat :=
  match t.source with
  | .internal => perBeat t.internal
  | .midi => clampNat 9600 72000 t.follower.b
  | .held => t.heldBeat

/-- Post a report if there is one. -/
def postSome (r : Option Report) (s : State) : State :=
  match r with
  | some r => post r s
  | none => s

/-- Are beats by count withheld (R109)? -/
def Tmp.withheld (t : Tmp) : Bool := t.midiSource && t.isLocked

/-- Bring the tempo and beat length in use into line with R101: a changed beat length gives the notice of R110, then a
report that depends on the tempo now in use is posted, then a changed tempo posts TEMPO_VALUE (R112). A beat by count that has
not been given is withheld once the clock gives the beats (R109). -/
def alignTempo (before : Nat → Option Report) (s : State) : State :=
  let tempo := s.tmp.tempoInUse
  let beat := s.tmp.beatInUse
  let s' := withTmp (fun t => { t with tempo := tempo, beat := beat, beatDue := t.beatDue && !t.withheld }) s
  let s' := if beat = s.tmp.beat then s' else beatNotice s'
  let s' := postSome (before tempo) s'
  if tempo = s.tmp.tempo then s' else post (.tempoValue tempo beat s.tmp.source) s'

/-- Nothing to post before TEMPO_VALUE. -/
def noReport (_ : Nat) : Option Report := none

/-- Set the internal tempo, and the held values where R101 calls for it. -/
def setInternal (tempo : Nat) (s : State) : State :=
  alignTempo noReport (withTmp (fun t =>
    let held := t.midiSource && !t.isLocked
    { t with
      internal := tempo
      heldTempo := if held then tempo else t.heldTempo
      heldBeat := if held then perBeat tempo else t.heldBeat }) s)

/-- The tap series ends (R102). -/
def endSeries (s : State) : State := withTmp (fun t => { t with lastTap := none, intervals := [] }) s

/-- A change of source (R101): when it becomes MIDI with the follower not LOCKED, the held values are those in use before. -/
def setTempoSource (midi : Bool) (s : State) : State :=
  alignTempo noReport (withTmp (fun t =>
    let take := midi && !t.midiSource && !t.isLocked
    { t with
      midiSource := midi
      heldTempo := if take then t.tempo else t.heldTempo
      heldBeat := if take then t.beat else t.heldBeat }) s)

/-- The preset's tempo field at a completion (R111). -/
def presetTempo (field : Option Nat) (s : State) : State :=
  match field with
  | none => s
  | some tempo => if s.tmp.presetSets then endSeries (setInternal (clampTempo tempo) s) else s

/-! ## Taps (R103, R104) -/

/-- The mean of an interval list (R104). -/
def meanInterval (l : List Nat) : Nat := (l.sum + l.length / 2) / l.length

/-- A tap: the first row of R103's table whose condition holds decides. -/
def takeTap (s : State) : State × TapOutcome :=
  let now := s.tmp.sampleNo
  if s.tmp.midiSource ∧ s.tmp.isLocked then (post .tapIgnored s, .ignored)
  else if s.aup.clock ≠ .running then (endSeries s, .cleared)
  else
    match s.tmp.lastTap with
    | none => (withTmp (fun t => { t with lastTap := some now, intervals := [] }) s, .first)
    | some last =>
      let i := now - last
      if 96000 < i then (withTmp (fun t => { t with lastTap := some now, intervals := [] }) s, .newSeries)
      else if 72000 < i then (withTmp (fun t => { t with lastTap := some now }) s, .invalid)
      else if 9600 ≤ i then
        let l := s.tmp.intervals ++ [i]
        let l := l.drop (l.length - 4)
        (setInternal (tempoOf (meanInterval l)) (withTmp (fun t => { t with lastTap := some now, intervals := l }) s), .added)
      else (s, .dropped)

/-! ## The MIDI clock follower (R105, R106, R107) -/

/-- Change the follower. -/
def withFollower (f : Follower → Follower) (s : State) : State := withTmp (fun t => { t with follower := f t.follower }) s

/-- A measurement begins, while the clock monitor is RUNNING (R105). -/
def beginMeasure (s : State) : State :=
  if s.aup.clock = .running then withFollower (fun f => { f with start := some s.tmp.sampleNo, count := 0 }) s else s

/-- A clock byte is taken (R105); a count of 24 leaves the measurement to be completed. -/
def takeClock (s : State) : State :=
  match s.tmp.follower.state with
  | .noClock => beginMeasure (withFollower (fun f => { f with state := .search, timer := true }) s)
  | _ =>
    let s := withFollower (fun f => { f with timer := true }) s
    match s.tmp.follower.start with
    | none => beginMeasure s
    | some _ => withFollower (fun f => { f with count := f.count + 1 }) s

/-- A measurement is complete and waits to be judged. -/
def measureDue (s : State) : Bool := s.tmp.follower.start.isSome && decide (24 ≤ s.tmp.follower.count)

/-- A beat event goes to the Recall Unit: an ARMED recall starts its fade at the next block boundary (R108, R140). -/
def giveBeat (s : State) : State :=
  if s.rcu.state = .armed then { s with rcu := { s.rcu with fadeDue := true } } else s

/-- The follower leaves LOCKED: F7 is cleared, the held values are set while the source is MIDI, and TEMPO_LOCK is posted
(R101, R106). -/
def leaveLocked (f : Follower → Follower) (reason : UnlockReason) (s : State) : State :=
  let s := withTmp (fun t => { t with
    follower := f t.follower
    heldTempo := if t.midiSource then t.tempo else t.heldTempo
    heldBeat := if t.midiSource then t.beat else t.heldBeat }) s
  let state := s.tmp.follower.state
  let b := s.tmp.follower.b
  alignTempo (fun tempo => some (.tempoLock state (some reason) b tempo)) (setF7 false s)

/-- A measurement `m` in SEARCH (R105). -/
def measureSearch (m : Nat) (s : State) : State :=
  let agrees := match s.tmp.follower.m1 with
    | none => false
    | some m1 => decide (((m : Int) - m1).natAbs * 50 ≤ m1)
  if agrees then
    let s := withFollower (fun f => { f with state := .locked, b := m, history := [], m1 := none }) s
    let s := if s.tmp.midiSource then withTmp (fun t => { t with beatCount := 0 }) s else s
    alignTempo (fun tempo => some (.tempoLock .locked none m tempo)) (setF7 true s)
  else withFollower (fun f => { f with m1 := some m }) s

/-- A measurement `m` in LOCKED (R106), with the beat it gives while the source is MIDI (R109). -/
def measureLocked (m : Nat) (s : State) : State :=
  let b := s.tmp.follower.b
  let deviant := decide (b < ((m : Int) - b).natAbs * 25)
  let b' := if deviant then b else (3 * b + m + 2) / 4
  let h := s.tmp.follower.history ++ [deviant]
  let h := h.drop (h.length - 4)
  let beat := s.tmp.midiSource
  let s :=
    if 2 ≤ h.count true then leaveLocked (fun f => { f with state := .search, m1 := some m, history := [], b := b' }) .deviant s
    else alignTempo noReport (withFollower (fun f => { f with b := b', history := h }) s)
  if beat then giveBeat (withTmp (fun t => { t with beatCount := 0 }) s) else s

/-- The 24th clock byte's measurement is judged, and the next one begins (R105). -/
def judgeMeasure (s : State) : State :=
  match s.tmp.follower.start with
  | none => s
  | some start =>
    let m := s.tmp.sampleNo - start
    let s := withFollower (fun f => { f with start := some s.tmp.sampleNo, count := 0 }) s
    match s.tmp.follower.state with
    | .locked => measureLocked m s
    | _ => measureSearch m s

/-- The no-clock timer expires (R106); a completed measurement that has not been taken is dropped (DESIGN CHOICE, log 62). -/
def noClock (s : State) : State :=
  let f := fun f : Follower => { f with state := .noClock, start := none, count := 0, m1 := none, history := [], timer := false }
  if s.tmp.isLocked then leaveLocked f .noClock s else withFollower f s

/-- The clock-lost notice (R104, R107); a beat by count that has not been given is not given any more (R108; DEDUCED, log
47), nor is a completed measurement judged that has not been taken (DESIGN CHOICE, log 62). -/
def tempoClockLost (s : State) : State :=
  let s := withTmp (fun t => { t with beatDue := false }) (endSeries s)
  withFollower (fun f => { f with start := none, count := 0, m1 := if f.state = .search then none else f.m1 }) s

/-! ## The beat timer (R108, R109) -/

/-- A sample period of the Tempo Unit: the sample number and the beat count go up; a count at the beat length in use makes a
beat event due. -/
def tempoSample (t : Tmp) : Tmp :=
  { t with
    sampleNo := t.sampleNo + 1
    beatCount := t.beatCount + 1
    beatDue := t.beatDue || (!t.withheld && decide (t.beat ≤ t.beatCount + 1)) }

end Sys2Proof.Machine
end

