-- ==== Sys2Proof/Machine/Flash.lean ====
section
/-! DEFINITION. The Preset Store: flash, sector table, directory, arbiter, request queue, record writes and reclaim
(chapter 9, less the scan). -/

namespace Sys2Proof.Machine

/-- Set the Preset Store. -/
def withPst (f : Pst → Pst) (s : State) : State := { s with pst := f s.pst }

/-! ## Flash (R152) -/

/-- The address of a byte of a sector. -/
def flashAddr (sector off : Nat) : Nat := 4096 * sector + off

/-- The bytes of flash from an address on. -/
def flashBytes (flash : Mem Byte) (addr n : Nat) : List Byte := Mem.getMany 0xFF flash addr n

/-- Program bytes: bits go only from erased to programmed. -/
def flashProgram (flash : Mem Byte) (addr : Nat) : List Byte → Mem Byte
  | [] => flash
  | v :: vs => flashProgram (Mem.set 0xFF flash addr (Mem.get 0xFF flash addr &&& v)) (addr + 1) vs

/-- A program step that did not give what was to be programmed: of the bits it was to move, unknown ones have moved
(FREE VALUE, log 3). -/
def flashSpoil (n : Nat) (flash : Mem Byte) (addr : Nat) : List Byte → Mem Byte
  | [] => flash
  | v :: vs =>
    flashSpoil n (Mem.set 0xFF flash addr (Mem.get 0xFF flash addr &&& (v ||| Config.flashBits n addr))) (addr + 1) vs

/-- Erase a sector. -/
def flashErase (flash : Mem Byte) (sector : Nat) : Mem Byte := Mem.clear flash (4096 * sector) 4096

/-- An erase that stopped at an unknown point: of the programmed bits of the sector, unknown ones read erased (FREE
VALUE, log 3). -/
def flashTear (n : Nat) (flash : Mem Byte) (sector : Nat) : Mem Byte :=
  flash.filterMap (fun e =>
    if e.1 / 4096 = sector then
      if e.2 ||| Config.flashBits n e.1 = 0xFF then none else some (e.1, e.2 ||| Config.flashBits n e.1)
    else some e)

/-! ## Sector table and directory (R156, R157) -/

/-- A sector's entry. -/
def sector (p : Pst) (k : Nat) : Sector := Mem.get {} p.sectors k

/-- Change a sector's entry. -/
def modSector (k : Nat) (f : Sector → Sector) (p : Pst) : Pst := { p with sectors := Mem.modify {} p.sectors k f }

/-- The directory key of GLOBALS. -/
def keyGlobals : Nat := 256
/-- The directory key of BINDINGS. -/
def keyBindings : Nat := 257

/-- A directory entry. -/
def entry (p : Pst) (key : Nat) : Option DirEntry := Mem.get none p.dir key

/-- The body of a located record. -/
def bodyOf (p : Pst) (d : DirEntry) : List Byte := flashBytes p.flash (flashAddr d.sector d.off + 16) (d.len - 16)

/-- The number of ERASED sectors. -/
def erasedCount (p : Pst) : Nat := 64 - (p.sectors.filter (fun e => e.2.state ≠ .erased)).length

/-- The OPEN sector. -/
def openSector (p : Pst) : Option (Nat × Sector) := p.sectors.find? (fun e => e.2.state == .opened)

/-- The lowest-numbered ERASED sector. -/
def lowestErased (p : Pst) : Option Nat := (List.range 64).find? (fun k => (sector p k).state = .erased)

/-- The store's total live bytes. -/
def liveBytes (p : Pst) : Nat := (p.sectors.map (fun e => e.2.live)).sum

/-- The store's total dead bytes. -/
def deadBytes (p : Pst) : Nat := (p.sectors.map (fun e => e.2.dead)).sum

/-- A sector becomes FULL: its unused end is dead (R156). -/
def makeFull (e : Sector) : Sector := { e with state := .full, dead := e.dead + (4096 - e.next), next := 4096 }

/-- The live records of a sector, by key (R154). -/
def liveOf (p : Pst) (k : Nat) : List (Nat × DirEntry) :=
  p.dir.filterMap (fun e => match e.2 with | some d => if d.sector = k then some (e.1, d) else none | none => none)

/-- The record of lowest offset. -/
def firstRecord : List (Nat × DirEntry) → Option (Nat × DirEntry)
  | [] => none
  | x :: t => match firstRecord t with
    | none => some x
    | some y => if y.2.off < x.2.off then some y else some x

/-! ## The lock range (R161) -/

/-- The number of presets a size code counts. -/
def lockCount (size : Nat) : Nat := [0, 8, 16, 32, 64, 128, 256].getD size 0

/-- Does preset `n` lie in the protected set? -/
def LockRange.holds (l : LockRange) (n : Nat) : Bool :=
  xor (if l.bottom then decide (n < lockCount l.size) else decide (256 ≤ n + lockCount l.size)) l.complement

/-! ## Images (R155, R166) -/

/-- The live settings that GLOBALS carries (R155, R166). -/
def liveGlobals (s : State) : Globals :=
  { lock := s.pst.lock
    settingsLock := s.pst.settingsLock
    ref := s.tun.ref
    window := s.tun.window
    channel := s.tun.mode.channel
    policy := s.tun.mode.policy
    exitOnRecall := s.tun.mode.exitOnRecall
    midiSource := s.tmp.midiSource
    presetSets := s.tmp.presetSets
    holdTime := s.swc.holdTime
    midiChannel := s.swc.channel
    directMap := s.swc.directMap
    ins := lanes.map (fun k => (inLane s k).cfg)
    outs := lanes.map (fun k => (outLane s k).cfg)
    ctrlMap := (List.range 8).map (fun k => Mem.get none s.tne.ctrlMap k)
    boot := s.rcu.bootPreset
    footPermit := s.lkc.footPermit }

/-- What a request is to write: records by key and body, in order, with the parsed chain of a preset image for the
cost check, and whether a value was clamped. -/
structure Gathered where
  records : List (Nat × List Byte) := []
  cost : Nat := 0
  clamped : Bool := false
deriving DecidableEq, Repr

/-- The image a SAVE_RECORD writes (R164): as sent where no value was clamped, and else formed anew from the clamped values,
which sets the bytes that carry no meaning to 0 (DESIGN CHOICE, log 34). -/
def gatherRecord (preset : Nat) (image : List Byte) : Option Gathered :=
  match parsePreset true image with
  | none => none
  | some (c, clamped) =>
    some { records := [(preset, if clamped then presetImage c c.name else image)], cost := slotsCost c.slots, clamped := clamped }

/-- The images a request would gather now; `none` where it has none that is well formed (R160, R163 to R167). -/
def gather (s : State) (op : StoreOp) : Option Gathered :=
  match op with
  | .save preset named name =>
    match editBuf s, flagOfCode named.toNat with
    | some bid, some given =>
      let c := (buf s bid).chain
      some { records := [(preset, presetImage c (if given then name else c.name))], cost := slotsCost c.slots }
    | _, _ => none
  | .saveRecord preset image => gatherRecord preset image
  | .delete _ => some {}
  | .saveSettings => some { records := [(keyGlobals, globalsImage (liveGlobals s)), (keyBindings, bindingsImage s.swc.bindings)] }
  | .setLock pos size comp set =>
    if 1 < pos.toNat ∨ 6 < size.toNat ∨ 1 < comp.toNat ∨ 1 < set.toNat then none
    else some { records := [(keyGlobals, [pos, size, comp, set] ++ (globalsImage {}).drop 4)] }

/-- The total length of a record with a body. -/
def recordLen (body : List Byte) : Nat := 16 + body.length

/-- Do records placed one after another from an offset of the OPEN sector need a fresh sector (R162)? -/
def overflows : Nat → List Nat → Bool
  | _, [] => false
  | next, n :: rest => if next + n ≤ 4096 then overflows (next + n) rest else true

/-- Does a request need a fresh sector now? -/
def needsFresh (s : State) (op : StoreOp) : Bool :=
  match gather s op with
  | none => false
  | some g => overflows (match openSector s.pst with | some (_, e) => e.next | none => 4096)
      (g.records.map (fun r => recordLen r.2))

/-- The head request can begin: it is not short of a sector (R162). -/
def canBegin (s : State) (r : StoreReq) : Bool := !(needsFresh s r.op && decide (erasedCount s.pst < 2))

/-! ## Reclaim starts (R169) -/

/-- Can a sector be emptied? -/
def emptiable (p : Pst) (e : Sector) : Bool :=
  decide (e.live = 0) || decide (0 < erasedCount p) ||
    (match openSector p with
     | some (_, o) => decide (e.live + o.next ≤ 4096)
     | none => false)

/-- The victim: the FULL sector with the most dead bytes among those that can be emptied, the lowest-numbered among
equals. -/
def pickVictim (p : Pst) : Option Nat :=
  let c := p.sectors.filter (fun e => decide (e.2.state = .full ∧ 0 < e.2.dead) && emptiable p e.2)
  (c.find? (fun e => c.all (fun f => f.2.dead ≤ e.2.dead))).map (·.1)

/-- The queue leaves the flash to reclaim: it is empty, or its head is held back. -/
def queueYields (p : Pst) : Bool :=
  match p.queue with
  | [] => true
  | r :: _ => r.held

/-- Reclaim starts when R169's conditions hold. That it starts on a victim with no live record when the generations are exhausted, as R169's
count has it where R157 says that it does not start, is the model's choice. DESIGN CHOICE, unsafe (log 87). -/
def tryReclaim (s : State) : State :=
  let p := s.pst
  if !p.scanning && p.reclaim.isNone && queueYields p && decide (erasedCount p ≤ 2) then
    match pickVictim p with
    | none => s
    | some v =>
      if p.nextGen + (liveOf p v).length ≤ 16777215 then
        withPst (fun p => { modSector v (fun e => { e with state := .reclaim }) p with reclaim := some { victim := v } }) s
      else s
  else s

/-- The head of the queue is answered and leaves it. -/
def answerHead (code : Code) (notes : Byte) (data : ReplyData) (s : State) : State :=
  match s.pst.queue with
  | [] => s
  | r :: rest => answer r.dest code notes data (withPst (fun p => { p with queue := rest, job := none }) s)

/-- A moment at which R169 tests its conditions: reclaim may start, and a request held back while none runs is refused
STORE_FULL (R162). -/
def reclaimMoment (s : State) : State :=
  let s := tryReclaim s
  if ((s.pst.queue.head?).map StoreReq.held) = some true ∧ s.pst.reclaim.isNone then
    tryReclaim (answerHead .storeFull 0 .none s)
  else s

/-- A request is answered and leaves the queue. -/
def leaveQueue (code : Code) (notes : Byte) (data : ReplyData) (s : State) : State :=
  reclaimMoment (answerHead code notes data s)

/-! ## Program steps (R162, R168) -/

/-- Where a step programs, and what. -/
def Writer.bytes (w : Writer) : Nat × List Byte :=
  let base := flashAddr w.sector w.off
  match w.step with
  | .header => (base, headerBytes w.key w.gen (recordLen w.body) ++ List.replicate 8 0xFF)
  | .body done => (base + 16 + done, (w.body.drop done).take 256)
  | .valid => (base, [0xFC])
  | .supersede old => (flashAddr old.sector old.off, [0xF8])
  | .kill => (base, [0xF8])

/-- Start a program step. -/
def startProgram (at_ : Nat × List Byte) (s : State) : State := withPst (fun p => { p with op := some (.program at_.1 at_.2) }) s

/-- A record's length moves from its sector's live bytes to its dead bytes. -/
def kill (d : DirEntry) (p : Pst) : Pst := modSector d.sector (fun e => { e with live := e.live - d.len, dead := e.dead + d.len }) p

/-- A program failure is counted and reported (R168). -/
def storeFault (sec off : Nat) (step : WriteStep) (s : State) : State := post (.storeFault sec off step) (countEvent ctrStore s)

/-- Place a record: in the OPEN sector where it fits, else in the lowest-numbered ERASED sector, which becomes OPEN (R162
step 1). -/
def place (len : Nat) (p : Pst) : Pst × Option (Nat × Nat) :=
  let fresh := fun p : Pst =>
    match lowestErased p with
    | none => (p, none)
    | some k => (modSector k (fun e => { e with state := .opened }) p, some (k, 0))
  match openSector p with
  | some (k, e) => if e.next + len ≤ 4096 then (p, some (k, e.next)) else fresh (modSector k makeFull p)
  | none => fresh p

/-- A record write placed and ready for its header step; `none` where no sector is left. -/
def newWriter (key : Nat) (body : List Byte) (s : State) : State × Option Writer :=
  let r := place (recordLen body) s.pst
  (withPst (fun _ => r.1) s, r.2.map (fun at_ => ⟨key, body, at_.1, at_.2, s.pst.nextGen, .header⟩))

/-- The step after a body step that leaves `done` bytes programmed. -/
def Writer.afterBody (w : Writer) (done : Nat) : WriteStep := if done < w.body.length then .body done else .valid

/-- What a completed step of a record write leads to. -/
inductive WriteNext where
  | more (w : Writer) | written | failed
deriving DecidableEq, Repr

/-- A new record of key `w.key` becomes VALID: the directory moves to it and its sector's live bytes grow; for GLOBALS its
lock takes effect (R162 step 4). -/
def recordValid (w : Writer) (p : Pst) : Pst :=
  let p := modSector w.sector (fun e => { e with live := e.live + recordLen w.body })
    { p with dir := Mem.set none p.dir w.key (some ⟨w.sector, w.off, w.gen, recordLen w.body⟩) }
  if w.key = keyGlobals then
    let g := (parseGlobals w.body).1
    { p with lock := g.lock, settingsLock := g.settingsLock }
  else p

/-- A failed header, body or VALID step: the record is dead and its sector becomes FULL (R168). -/
def recordFailed (w : Writer) (s : State) : State :=
  withPst (modSector w.sector (fun e => makeFull { e with dead := e.dead + recordLen w.body }))
    (storeFault w.sector w.off w.step s)

/-- The header step is over: the generation is taken and the sector's next free offset advances (R162 step 2). -/
def headerDone (w : Writer) (p : Pst) : Pst :=
  modSector w.sector (fun e => { e with next := e.next + recordLen w.body }) { p with nextGen := p.nextGen + 1 }

/-- A step of a record write and its read-back complete (R162, R168). -/
def writerStep (w : Writer) (matched : Bool) (s : State) : State × WriteNext :=
  match w.step with
  | .header =>
    let s := withPst (headerDone w) s
    if matched then (s, .more { w with step := w.afterBody 0 }) else (recordFailed w s, .failed)
  | .body done =>
    if matched then (s, .more { w with step := w.afterBody (done + 256) }) else (recordFailed w s, .failed)
  | .valid =>
    if matched then
      let s' := withPst (recordValid w) s
      match entry s.pst w.key with
      | some old => (s', .more { w with step := .supersede old })
      | none => (s', .written)
    else (recordFailed w s, .more { w with step := .kill })
  | .supersede old =>
    let s := if matched then s else storeFault old.sector old.off w.step s
    (withPst (kill old) s, .written)
  | .kill => (if matched then s else storeFault w.sector w.off w.step s, .failed)

/-! ## The arbiter (R153, R158) -/

/-- The head of the waiting reads leaves them. -/
def dropRead (s : State) : State := withPst (fun p => { p with reads := p.reads.tail }) s

/-- Serve waiting reads in arrival order while the flash is free: an absent entry is answered NOT_FOUND without a flash access,
a present one starts a read. A recall's read of an absent entry stays at the head, for the Recall Unit to fail before the
reads behind it are served (R158). -/
def serveReads : Nat → State → State
  | 0, s => s
  | n + 1, s =>
    match s.pst.reads with
    | [] => s
    | r :: _ =>
      match entry s.pst r.preset, r.reader with
      | some d, _ => withPst (fun p => { p with op := some (.read r.reader d) }) (dropRead s)
      | none, .recall _ => s
      | none, .link dest => serveReads n (answerCode (some dest) .notFound (dropRead s))
      | none, _ => serveReads n (dropRead s)

/-- The recall read at the head of the waiting reads, with the flash free and its entry absent (R158). -/
def absentRead (s : State) : Option Nat :=
  match s.pst.op, s.pst.reads with
  | none, ⟨.recall n, preset⟩ :: _ => if (entry s.pst preset).isNone then some n else none
  | _, _ => none

/-- Start the next step of the request in progress or of the reclaim copy (R153 points 3 and 4). -/
def startNext (s : State) : State :=
  match s.pst.job with
  | some (.writing w _ _) => startProgram w.bytes s
  | some (.deleting _ old) => startProgram (flashAddr old.sector old.off, [0xF8]) s
  | some .readGlobals => s
  | none =>
    match s.pst.reclaim with
    | some ⟨_, some ⟨_, _, some w⟩⟩ => startProgram w.bytes s
    | _ => s

/-- The flash is free: the arbiter takes the first that waits of a read, a suspended erase and the next step of what is in
progress (R153). -/
def arbitrate (s : State) : State :=
  match s.pst.op with
  | some _ => s
  | none =>
    let s := serveReads (s.pst.reads.length) s
    match s.pst.op, s.pst.reads, s.pst.suspended with
    | some _, _, _ => s
    | none, _ :: _, _ => s
    | none, [], some k => withPst (fun p => { p with op := some (.erase k), suspended := none }) s
    | none, [], none => startNext s

/-- A read arrives: an erase in progress is suspended, and a free flash serves it (R153). -/
def enqueueRead (r : ReadReq) (s : State) : State :=
  let s := withPst (fun p => { p with reads := p.reads ++ [r] }) s
  match s.pst.op with
  | some (.erase k) => arbitrate (withPst (fun p => { p with op := none, suspended := some k }) s)
  | some _ => s
  | none => arbitrate s

/-! ## The request queue (R159, R160) -/

/-- A store request arrives (R159). -/
def storeArrive (op : StoreOp) (dest : Option Dest) (s : State) : State :=
  let locked := match op with | .setLock .. => s.pst.lockKey | _ => false
  if s.pst.scanning then answerCode dest .notReady s
  else if locked then answerCode dest .lockHeld s
  else if 4 ≤ s.pst.queue.length then answerCode dest .busy s
  else withPst (fun p => { p with queue := p.queue ++ [{ op := op, dest := dest }] }) s

/-- The first check of R160 that a request fails, with its code; `g` is what it would write. -/
def refusal (s : State) (op : StoreOp) (g : Option Gathered) : Option Code :=
  let p := s.pst
  let source : Option Code := match op with
    | .save .. => if (editBuf s).isNone then some .notReady else none
    | .delete n => if (entry p n).isNone then some .notFound else none
    | _ => none
  let lock : Option Code := match op with
    | .save n _ _ => if p.lock.holds n then some .locked else none
    | .saveRecord n _ => if p.lock.holds n then some .locked else none
    | .delete n => if p.lock.holds n then some .locked else none
    | .saveSettings => if p.settingsLock then some .locked else none
    | .setLock .. => if p.lockKey then some .lockHeld else none
  let rest : Option Code := match g with
    | none => some .badField
    | some g =>
      let new := (g.records.map (fun r => recordLen r.2)).sum
      let lenAt := fun key => ((entry p key).map (·.len)).getD 0
      let old := match op with | .delete n => lenAt n | _ => (g.records.map (fun r => lenAt r.1)).sum
      if 1280 < g.cost then some .overBudget
      else if 196608 + old < liveBytes p + new then some .storeFull
      else if g.records.length ≠ 0 ∧ 16777215 < p.nextGen + g.records.length then some .storeFull
      else none
  source.or (lock.or rest)

/-- Begin to write a request's records; where no sector is left it is refused. -/
def beginWrite (records : List (Nat × List Byte)) (clamped : Bool) (s : State) : State :=
  match records with
  | [] => s
  | r :: rest =>
    match newWriter r.1 r.2 s with
    | (s, some w) => startProgram w.bytes (withPst (fun p => { p with job := some (.writing w rest clamped) }) s)
    | (s, none) => leaveQueue .storeFull 0 .none s

/-- The buffer a SAVE's image is taken from is remembered until the save completes (R54, R163). -/
def markSaving (op : StoreOp) (s : State) : State :=
  match op, editBuf s with
  | .save .., some bid => modBuf bid (fun u => { u with saving := true, editedSince := false }) s
  | _, _ => s

/-- A request that has passed its checks begins (R162, R165, R167). -/
def beginRequest (op : StoreOp) (g : Gathered) (s : State) : State :=
  match op with
  | .delete n =>
    match entry s.pst n with
    | none => s
    | some d =>
      startProgram (flashAddr d.sector d.off, [0xF8]) (withPst (fun p => { p with job := some (.deleting n d) }) s)
  | .setLock .. =>
    match entry s.pst keyGlobals with
    | some d => withPst (fun p => { p with op := some (.read .job d), job := some .readGlobals }) s
    | none => beginWrite g.records false s
  | _ => beginWrite g.records g.clamped (markSaving op s)

/-- Is the flash free for the queue and for reclaim: no operation, no waiting read, no suspended erase, nothing in
progress (R153)? -/
def flashIdle (p : Pst) : Bool :=
  !p.scanning && p.op.isNone && p.reads.isEmpty && p.suspended.isNone && p.job.isNone &&
    (match p.reclaim with | some r => r.copy.isNone | none => true)

/-- The head request is to begin, or to be held back (R160, R162). -/
def beginDue (s : State) : Bool :=
  flashIdle s.pst &&
    (match s.pst.queue with
     | [] => false
     | r :: _ => !r.held || canBegin s r)

/-- The head request gets the flash: it is held back for a sector, refused by a check, or begins (R160, R162). -/
def requestBegin (s : State) : State :=
  match s.pst.queue with
  | [] => s
  | r :: rest =>
    if canBegin s r then
      let g := gather s r.op
      match refusal s r.op g with
      | some code => leaveQueue code 0 .none s
      | none => beginRequest r.op (g.getD {}) s
    else reclaimMoment (withPst (fun p => { p with queue := { r with held := true } :: rest }) s)

/-! ## Completions (R54, R162 to R167) -/

/-- A SAVE has completed OK: the buffer its image came from takes the number and generation and settles its edited flag, and the
identity follows while the Recall Unit is not FADING (R54, R132, R163). -/
def saveDone (preset gen : Nat) (s : State) : State :=
  let settle := fun u : Buffer =>
    if u.saving then
      { u with saving := false, chain := { u.chain with preset := preset, gen := gen, edited := u.editedSince } }
    else u
  let taken := s.tne.bufA.saving || s.tne.bufB.saving
  let s := modBuf .b settle (modBuf .a settle s)
  let edited := match activeBuf s with | some bid => (buf s bid).chain.edited | none => false
  if taken ∧ s.rcu.state ≠ .fading then
    { s with rcu := { s.rcu with ident := { s.rcu.ident with preset := some preset, gen := gen, edited := edited } } }
  else s

/-- A SAVE that does not complete OK changes nothing in its buffer (R54). -/
def saveFailed (s : State) : State :=
  let f := fun u : Buffer => { u with saving := false }
  modBuf .b f (modBuf .a f s)

/-- The last record of the head request has been written: it completes OK. -/
def requestDone (w : Writer) (clamped : Bool) (s : State) : State :=
  let note := clampedIf clamped
  match (s.pst.queue.head?).map StoreReq.op with
  | some (.save preset _ _) => leaveQueue .ok note (.saved preset w.gen) (saveDone preset w.gen s)
  | some (.saveRecord ..) => leaveQueue .ok note (.written w.gen) s
  | _ => leaveQueue .ok note .none s

/-- A step of the head request's write is over. -/
def jobStep (w : Writer) (rest : List (Nat × List Byte)) (clamped matched : Bool) (s : State) : State :=
  match writerStep w matched s with
  | (s, .more w) => withPst (fun p => { p with job := some (.writing w rest clamped) }) s
  | (s, .failed) => leaveQueue .storeFault 0 .none (saveFailed s)
  | (s, .written) =>
    match rest with
    | [] => requestDone w clamped s
    | r :: rest =>
      match newWriter r.1 r.2 s with
      | (s, some w) => withPst (fun p => { p with job := some (.writing w rest clamped) }) s
      | (s, none) => leaveQueue .storeFull 0 .none s

/-- The SUPERSEDED step of a DELETE is over (R165, R168). -/
def deleteStep (key : Nat) (old : DirEntry) (matched : Bool) (s : State) : State :=
  if matched then
    leaveQueue .ok 0 .none (withPst (fun p => { kill old p with dir := Mem.drop p.dir key }) s)
  else leaveQueue .storeFault 0 .none (storeFault old.sector old.off (.supersede old) s)

/-- SET_LOCK has read the GLOBALS record: its image is that body with the lock fields of the request (R167), at the length
R155 fixes; a byte the record lacked is written as 0 (DESIGN CHOICE, log 78). -/
def lockRead (body : List Byte) (s : State) : State :=
  match (s.pst.queue.head?).map StoreReq.op with
  | some (.setLock pos size comp set) =>
    match newWriter keyGlobals ([pos, size, comp, set] ++ (body.drop 4 ++ List.replicate 184 0).take 184) s with
    | (s, some w) => withPst (fun p => { p with job := some (.writing w [] false) }) s
    | (s, none) => leaveQueue .storeFull 0 .none s
  | _ => s

/-! ## Reclaim steps (R170, R171) -/

/-- Reclaim is abandoned: the victim is FULL again (R170). -/
def abandonReclaim (s : State) : State :=
  match s.pst.reclaim with
  | none => s
  | some r =>
    reclaimMoment (withPst (fun p => { modSector r.victim (fun e => { e with state := .full }) p with reclaim := none }) s)

/-- Reclaim may take the flash for its next step (R153, R169). -/
def reclaimFree (s : State) : Bool :=
  flashIdle s.pst &&
    (match s.pst.queue with
     | [] => true
     | r :: _ => r.held && !canBegin s r)

/-- Does a record of some length fit in the OPEN sector or in an ERASED one (R170)? -/
def fitsSomewhere (p : Pst) (len : Nat) : Bool :=
  decide (0 < erasedCount p) || (match openSector p with | some (_, e) => decide (e.next + len ≤ 4096) | none => false)

/-- A copy step starts with its read, or reclaim is abandoned for want of space or generations (R157, R170). -/
def copyStart (victim : Nat) (key : Nat) (d : DirEntry) (s : State) : State :=
  if fitsSomewhere s.pst d.len && decide (s.pst.nextGen < 16777215) then
    withPst (fun p => { p with op := some (.read .copy d), reclaim := some ⟨victim, some { key := key, entry := d }⟩ }) s
  else abandonReclaim s

/-- The copy's record has been read: its write is placed. -/
def copyRead (body : List Byte) (s : State) : State :=
  match s.pst.reclaim with
  | some ⟨victim, some c⟩ =>
    match newWriter c.key body s with
    | (s, some w) => withPst (fun p => { p with reclaim := some ⟨victim, some { c with writer := some w }⟩ }) s
    | (s, none) => abandonReclaim s
  | _ => s

/-- The buffer the current identity describes: the ACTIVE one that a recall has completed, which is OUTGOING from the swap of
the next recall on (R132; DEDUCED, log 44). -/
def describedBuf (s : State) : Option BufId :=
  if s.rcu.state = .fading ∧ s.rcu.swapped then outgoingBuf s else activeBuf s

/-- Does a buffer hold a preset with a generation? -/
def Buffer.holds (u : Buffer) (preset gen : Nat) : Bool :=
  decide (u.state ≠ .empty ∧ u.chain.preset = preset ∧ u.chain.gen = gen)

/-- A copied preset's new generation reaches the buffers that hold it, and the identity where it describes one of them
(R170). -/
def copyValid (preset old gen : Nat) (s : State) : State :=
  let f := fun u : Buffer => if u.holds preset old then { u with chain := { u.chain with gen := gen } } else u
  let follows := match describedBuf s with | some bid => (buf s bid).holds preset old | none => false
  let s := modBuf .b f (modBuf .a f s)
  if follows then { s with rcu := { s.rcu with ident := { s.rcu.ident with gen := gen } } } else s

/-- A step of a copy's write is over (R170). A failure at the SUPERSEDED step leaves the original dead and reclaim going on
(DESIGN CHOICE, log 64). -/
def copyStep (victim : Nat) (c : Copy) (w : Writer) (matched : Bool) (s : State) : State :=
  let s' := if w.step = .valid ∧ matched ∧ w.key < 256 then copyValid w.key c.entry.gen w.gen s else s
  match writerStep w matched s' with
  | (s, .more w) => withPst (fun p => { p with reclaim := some ⟨victim, some { c with writer := some w }⟩ }) s
  | (s, .failed) => abandonReclaim s
  | (s, .written) => withPst (fun p => { p with reclaim := some { victim := victim } }) s

/-- The erase of a sector is over: it is ERASED, reclaim ends, a request held back is reconsidered, and reclaim may start
again (R171). -/
def eraseDone (k : Nat) (s : State) : State :=
  let s := withPst (fun p => { p with
    flash := flashErase p.flash k
    op := none
    reclaim := none
    sectors := Mem.set {} p.sectors k {} }) s
  let s :=
    match s.pst.queue with
    | r :: rest => if r.held && canBegin s r then withPst (fun p => { p with queue := { r with held := false } :: rest }) s else s
    | [] => s
  reclaimMoment s

/-- The step of the write in progress, its bytes programmed or spoilt, is over (R152). -/
def programDone (addr : Nat) (data : List Byte) (matched : Bool) (s : State) : State :=
  let n := s.free
  let s :=
    if matched then withPst (fun p => { p with op := none, flash := flashProgram p.flash addr data }) s
    else { withPst (fun p => { p with op := none, flash := flashSpoil n p.flash addr data }) s with free := n + 1 }
  match s.pst.job with
  | some (.writing w rest clamped) => jobStep w rest clamped matched s
  | some (.deleting key old) => deleteStep key old matched s
  | some .readGlobals => s
  | none =>
    match s.pst.reclaim with
    | some ⟨victim, some c⟩ =>
      match c.writer with
      | some w => copyStep victim c w matched s
      | none => s
    | _ => s

/-! ## The directory summary (R158, R197) -/

/-- The six bytes of a preset's summary: bit 0 of the flag byte says present, bit 1 protected (DESIGN CHOICE, log 8). -/
def summaryOf (p : Pst) (n : Nat) : List Byte :=
  let prot : Byte := if p.lock.holds n then 2 else 0
  match entry p n with
  | some d => [1 ||| prot] ++ bytes24 d.gen ++ bytes16 d.len
  | none => [prot, 0, 0, 0, 0, 0]

/-- The directory summary from a start number on. -/
def summaryFrom (p : Pst) (start : Nat) : List Byte :=
  (List.range (min 64 (256 - start))).flatMap (fun k => summaryOf p (start + k))

/-! ## Resets (R172) -/

/-- The flash after a reset tears the operation in progress. -/
def tornFlash (n : Nat) (p : Pst) : Mem Byte :=
  match p.op with
  | some (.program addr data) => flashSpoil n p.flash addr data
  | some (.erase k) => flashTear n p.flash k
  | _ =>
    match p.suspended with
    | some k => flashTear n p.flash k
    | none => p.flash

end Sys2Proof.Machine
end

