-- ==== Sys2Proof/Machine/Engine.lean ====
section
/-! DEFINITION. What the Tone Engine does in one sample period: slots and chains, tails and remnants, the output bus
(R23, R24, R35 to R43, R72 to R75). -/

namespace Sys2Proof.Machine

/-! ## Ramps of a voice and of a slot -/

/-- Every ramp of a voice advances once. -/
def Voice.advance (v : Voice) : Voice :=
  { v with a := v.a.advance, b := v.b.advance, dry := v.dry.advance, wet := v.wet.advance, input := v.input.advance }

/-- Every ramp of a voice is set to its target (R13). -/
def Voice.snap (v : Voice) : Voice :=
  { v with a := v.a.snap, b := v.b.snap, dry := v.dry.snap, wet := v.wet.snap, input := v.input.snap }

/-- Every ramp of a slot advances once; a slot that runs as THRU keeps advancing them (R37). -/
def Slot.advance (sl : Slot) : Slot :=
  { sl with voice := sl.voice.advance, dip := sl.dip.advance, engage := sl.engage.advance }

/-- Every ramp of a slot is set to its target (R13). -/
def Slot.snap (sl : Slot) : Slot :=
  { sl with voice := sl.voice.snap, dip := sl.dip.snap, engage := sl.engage.snap }

/-! ## The lines of a voice -/

/-- What the lines of a voice do in one sample period: line memory and write positions after it, the wet sample, and
whether a saturation changed a value. -/
structure Wet where
  mem : Mem Int
  pos : List Nat
  w : Int
  clip : Bool
deriving DecidableEq, Repr

/-- One line of length `len` at `base`, the voice's line number `i` (R29). -/
def voiceLine (m : Lma) (v : Voice) (mem : Mem Int) (i base len : Nat) (x d g : Int) : LineStep :=
  lineStep (regionPages m v.region) mem base len (v.pos.getD i 0) x d g

/-- A DELAY or MOD line over the whole region (R28, R40, R41). -/
def singleLine (m : Lma) (v : Voice) (mem : Mem Int) (x d g : Int) : Wet :=
  let r := voiceLine m v mem 0 0 (regionLen m v.region) x d g
  ⟨r.mem, [r.pos], r.r, r.clip⟩

/-- The six lines of a REVERB, from their common input (R42 steps 2 to 4). -/
def reverbLines (m : Lma) (v : Voice) (mem : Mem Int) (xi g : Int) : Wet :=
  let r1 := voiceLine m v mem 0 0 1447 xi 1447 g
  let r2 := voiceLine m v r1.mem 1 1447 1949 xi 1949 g
  let r3 := voiceLine m v r2.mem 2 3396 2411 xi 2411 g
  let r4 := voiceLine m v r3.mem 3 5807 3001 xi 3001 g
  let c := mixAcc [(r1.r, 2048), (r2.r, 2048), (r3.r, 2048), (r4.r, 2048)]
  let r5 := voiceLine m v r4.mem 4 8808 347 c.y 347 4096
  let r6 := voiceLine m v r5.mem 5 9155 113 r5.r 113 4096
  ⟨r6.mem, [r1.pos, r2.pos, r3.pos, r4.pos, r5.pos, r6.pos], r6.r,
    r1.clip || r2.clip || r3.clip || r4.clip || c.clip || r5.clip || r6.clip⟩

/-- The wet sample of a DELAY or REVERB voice for one input sample, its ramps already advanced (R41, R42, R73). -/
def wetOf (m : Lma) (k : Kind) (v : Voice) (mem : Mem Int) (x : Int) : Wet :=
  let xi := gainProduct x v.input.v
  let r := if k = .reverb then reverbLines m v mem xi.y v.b.v else singleLine m v mem xi.y v.a.v v.b.v
  { r with clip := xi.clip || r.clip }

/-! ## MOD (R40) -/

/-- The triangle of a phase. -/
def lfoTri (phase : Phase) : Int :=
  let p : Int := (phase.toNat / 65536 : Nat)
  if p < 32768 then 2 * p else 2 * (65535 - p)

/-- The delay of a MOD line of length `len`. -/
def modDelay (len : Nat) (depth : Int) (phase : Phase) : Int := clampDelay len (48 + depth * lfoTri phase / 65536)

/-- The phase increment of a rate. -/
def lfoStep (rate : Int) : Phase := BitVec.ofInt 32 (rate * 4294967296 / 4800000)

/-! ## GATE (R39) -/

/-- The gate state after a sample: it opens at once; its close is the event of a quiet count of 480. -/
def gateTake (x : Int) (sl : Slot) : Slot :=
  if sl.voice.a.v ≤ (x.natAbs : Int) then
    if sl.gateOpen then { sl with quiet := 0 }
    else { sl with quiet := 0, gateOpen := true, voice := { sl.voice with b := sl.voice.b.restart unity 48 } }
  else if sl.gateOpen then { sl with quiet := min 480 (sl.quiet + 1) }
  else sl

/-! ## A slot (R37) -/

/-- What a slot does in one sample period. -/
structure SlotOut where
  slot : Slot
  mem : Mem Int
  z : Int
  clip : Bool
  send : Option Int
deriving DecidableEq, Repr

/-- What the processing of a slot's kind gives: the slot, line memory, y, clip, and the LOOP slot's send. -/
structure KindOut where
  slot : Slot
  mem : Mem Int
  y : Int
  clip : Bool
  send : Option Int := none
deriving DecidableEq, Repr

/-- The current contents of a curve. -/
def curveOf (t : Tne) (i : Int) : List Int := (Mem.get {} t.curves i.toNat).current.getD []

/-- The current contents of a filter set. -/
def filterOf (t : Tne) (i : Int) : List Biquad := (Mem.get {} t.filters i.toNat).current.getD []

/-- Drive and waveshaper, as DRIVE and AMP begin (R38). -/
def driven (t : Tne) (sl : Slot) (x : Int) : Clipped :=
  let u := gainProduct x sl.voice.a.v
  ⟨shape (curveOf t (sl.run.getD 1 0)) u.y, u.clip⟩

/-- A filter set and then the level (R38). -/
def filtered (t : Tne) (sl : Slot) (set : Int) (x : Int) : Clipped × List Hist :=
  let f := filterSet (filterOf t set) sl.hist x
  let y := gainProduct f.1.y sl.voice.b.v
  (⟨y.y, f.1.clip || y.clip⟩, f.2)

/-- The wet and dry mix of a slot (R22). -/
def mixed (sl : Slot) (x w : Int) : Clipped := mixAcc [(x, sl.voice.dry.v), (w, sl.voice.wet.v)]

/-- The processing of a slot's kind, its ramps already advanced (R38 to R43, R72). `lane3` is the processed sample of
input lane 3. -/
def kindStep (t : Tne) (m : Lma) (lane3 : Int) (mem : Mem Int) (sl : Slot) (x : Int) : KindOut :=
  if sl.stub then
    let y := gainProduct x sl.voice.dry.v
    ⟨sl, mem, y.y, y.clip, none⟩
  else if sl.thru then ⟨sl, mem, x, false, none⟩
  else
    match sl.kind with
    | .trim =>
      let y := gainProduct x sl.voice.a.v
      ⟨sl, mem, y.y, y.clip, none⟩
    | .level =>
      let y := gainProduct x sl.voice.b.v
      ⟨sl, mem, y.y, y.clip, none⟩
    | .gate =>
      let y := gainProduct x sl.voice.b.v
      ⟨gateTake x sl, mem, y.y, y.clip, none⟩
    | .drive =>
      let v := driven t sl x
      let y := gainProduct v.y sl.voice.b.v
      ⟨sl, mem, y.y, v.clip || y.clip, none⟩
    | .amp =>
      let v := driven t sl x
      let f := filtered t sl (sl.run.getD 2 0) v.y
      ⟨{ sl with hist := f.2 }, mem, f.1.y, v.clip || f.1.clip, none⟩
    | .cab =>
      let f := filtered t sl (sl.run.getD 0 0) x
      ⟨{ sl with hist := f.2 }, mem, f.1.y, f.1.clip, none⟩
    | .eq =>
      let f := filtered t sl (sl.run.getD 0 0) x
      ⟨{ sl with hist := f.2 }, mem, f.1.y, f.1.clip, none⟩
    | .mod =>
      let d := modDelay (regionLen m sl.voice.region) sl.voice.b.v sl.lfo
      let r := singleLine m sl.voice mem x d 0
      let y := mixed sl x r.w
      ⟨{ sl with lfo := sl.lfo + lfoStep sl.voice.a.v, voice := { sl.voice with pos := r.pos } }, r.mem, y.y,
        r.clip || y.clip, none⟩
    | .delay =>
      let r := wetOf m .delay sl.voice mem x
      let y := mixed sl x r.w
      ⟨{ sl with voice := { sl.voice with pos := r.pos } }, r.mem, y.y, r.clip || y.clip, none⟩
    | .reverb =>
      let r := wetOf m .reverb sl.voice mem x
      let y := mixed sl x r.w
      ⟨{ sl with voice := { sl.voice with pos := r.pos } }, r.mem, y.y, r.clip || y.clip, none⟩
    | .loop =>
      let s := gainProduct x sl.voice.a.v
      let y := gainProduct lane3 sl.voice.b.v
      let send := gainProduct s.y sl.engage.v
      ⟨sl, mem, y.y, s.clip || y.clip || send.clip, some send.y⟩

/-- The hold count of a TRAILING slot falls by 1 in each sample it is processed (R50). -/
def trailCount (sl : Slot) : Slot :=
  if sl.bypass = .trailing ∧ sl.stub = false then { sl with hold := sl.hold - 1 } else sl

/-- A slot in one sample period: ramps, processing, dip, engage (R37). -/
def slotStep (t : Tne) (m : Lma) (lane3 : Int) (mem : Mem Int) (sl : Slot) (x : Int) : SlotOut :=
  let k := kindStep t m lane3 mem sl.advance x
  let y := gainProduct k.y k.slot.dip.v
  let z := mixAcc [(y.y, k.slot.engage.v), (x, unity - k.slot.engage.v)]
  ⟨trailCount k.slot, k.mem, z.y, k.clip || y.clip || z.clip, k.send⟩

/-! ## A chain (R35) -/

/-- What a chain does in one sample period: `inputs` gives each slot's input, `send` the first LOOP slot's send. -/
structure ChainOut where
  slots : List Slot
  mem : Mem Int
  y : Int
  clip : Bool
  send : Option Int
  inputs : List Int
deriving DecidableEq, Repr

/-- The slots of a chain in order. A LOOP slot that is THRU cannot be; the first LOOP slot's send is kept (R43). -/
def chainStep (t : Tne) (m : Lma) (lane3 : Int) : Mem Int → List Slot → Int → ChainOut
  | mem, [], x => ⟨[], mem, x, false, none, []⟩
  | mem, sl :: rest, x =>
    let o := slotStep t m lane3 mem sl x
    let r := chainStep t m lane3 o.mem rest o.z
    ⟨o.slot :: r.slots, r.mem, r.y, o.clip || r.clip, o.send.or r.send, x :: r.inputs⟩

/-- The input selection from the processed samples of lanes 1 and 2 (R35). -/
def InputSel.pick (i : InputSel) (l1 l2 : Int) : Int :=
  match i with
  | .lane1 => l1
  | .lane2 => l2
  | .sum => (mixAcc [(l1, 4096), (l2, 4096)]).y

/-! ## The engine in a sample period -/

/-- What the engine has formed so far in a sample period. -/
structure Bus where
  mem : Mem Int
  terms : List (Int × Int) := []
  clip : Bool := false
  send : Int := 0
  stubIns : List ((BufId × Nat) × Int) := []
deriving DecidableEq, Repr

/-- Process a buffer's chain and its fade gain; its term goes to the bus. -/
def runBuffer (bid : BufId) (l1 l2 lane3 : Int) (s : State) (bus : Bus) : State × Bus :=
  let c := (buf s bid).chain
  let o := chainStep s.tne s.lma lane3 bus.mem c.slots (c.input.pick l1 l2)
  let fade := c.fade.advance
  (modChain bid (fun c => { c with slots := o.slots, fade := fade }) s,
   { mem := o.mem
     terms := bus.terms ++ [(o.y, fade.v)]
     clip := bus.clip || o.clip
     send := o.send.getD 0
     stubIns := bus.stubIns ++ o.inputs.mapIdx (fun i x => ((bid, i), x)) })

/-- The input sample of a tail: its stub's input while that chain is processed, else 0 (R73). -/
def stubInput (bus : Bus) (source : Option (BufId × Nat)) : Int :=
  match source with
  | none => 0
  | some k => ((bus.stubIns.find? (fun e => e.1 == k)).map (·.2)).getD 0

/-- A tail record in one sample period (R73): its ramps, its wet sample, and its hold count. -/
def tailStep (m : Lma) (bus : Bus) (tl : Tail) : Tail × Wet :=
  let v := tl.voice.advance
  let r := wetOf m tl.kind v bus.mem (stubInput bus tl.source)
  let tl := { tl with voice := { v with pos := r.pos } }
  let tl :=
    match tl.phase with
    | .decay => tl
    | .ringing => if tl.hold = 0 then { tl with expired := true } else { tl with hold := tl.hold - 1 }
  (tl, r)

/-- The tail records in age order, with their terms (R23, R73). -/
def tailsStep (m : Lma) : List Tail → Bus → List Tail × Bus
  | [], bus => ([], bus)
  | tl :: rest, bus =>
    let o := tailStep m bus tl
    let r := tailsStep m rest { bus with mem := o.2.mem, terms := bus.terms ++ [(o.2.w, o.1.voice.wet.v)] }
    (o.1 :: r.1, r.2)

/-- The remnants in place order, with their terms; their input sample is 0 (R75). -/
def remnantsStep (m : Lma) : Mem (Option Remnant) → Bus → Mem (Option Remnant) × Bus
  | [], bus => ([], bus)
  | (_, none) :: rest, bus => remnantsStep m rest bus
  | (k, some g) :: rest, bus =>
    let v := g.voice.advance
    let r := wetOf m g.kind v bus.mem 0
    let o := remnantsStep m rest { bus with mem := r.mem, terms := bus.terms ++ [(r.w, v.wet.v)] }
    ((k, some { g with voice := { v with pos := r.pos } }) :: o.1, o.2)

/-- What the engine gives the Audio Port in a sample period: the output bus sample, whether the bus sum saturated, and
the LOOP send. -/
structure EngineOut where
  bus : Int
  busClip : Bool
  send : Int
deriving DecidableEq, Repr

/-- The Tone Engine in one sample period, from the processed samples of lanes 1, 2 and 3 (R23, R24, R35, R73, R75). -/
def engineStep (l1 l2 lane3 : Int) (s : State) : State × EngineOut :=
  let (s, bus) := match activeBuf s with
    | none => (s, ({ mem := s.lma.mem } : Bus))
    | some bid => runBuffer bid l1 l2 lane3 s { mem := s.lma.mem }
  let send := bus.send
  let clip := bus.clip
  let (s, bus) := match outgoingBuf s with
    | none => (s, bus)
    | some bid => runBuffer bid l1 l2 lane3 s bus
  let (tails, bus) := tailsStep s.lma s.tne.tails bus
  let (remnants, bus) := remnantsStep s.lma s.tne.remnants bus
  let mute := s.tne.muteRamp.advance
  let sum := mixAcc bus.terms
  ({ s with
     tne := { s.tne with
       tails := tails
       remnants := remnants
       muteRamp := mute
       blockClip := s.tne.blockClip || clip }
     lma := { s.lma with mem := bus.mem } },
   ⟨(gainProduct sum.y mute.v).y, sum.clip, send⟩)

end Sys2Proof.Machine
end

