-- ==== Sys2Proof/Machine/Lines.lean ====
section
/-! DEFINITION. The Line Memory Allocator and the tail set: grants, frees, request lists, cuts, detaches and budget
releases (chapter 4). -/

namespace Sys2Proof.Machine

/-! ## Regions (R61, R62, R63, R68) -/

/-- Set the Line Memory Allocator. -/
def withLma (f : Lma → Lma) (s : State) : State := { s with lma := f s.lma }

/-- Set the Tone Engine. -/
def withTne (f : Tne → Tne) (s : State) : State := { s with tne := f s.tne }

/-- The lowest region id not in use (R62). -/
def freshRegion (m : Lma) : Nat :=
  ((List.range (m.regions.length + 1)).find? (fun k => (Mem.get none m.regions k).isNone)).getD m.regions.length

/-- Set every sample of the pages of a list to zero (R63). -/
def zeroPages (pages : List Nat) (mem : Mem Int) : Mem Int := pages.foldl (fun m p => Mem.clear m (1024 * p) 1024) mem

/-- Grant the `n` lowest free pages to a new region of an owner; the answer is its id (R63). -/
def grantRegion (owner : Owner) (n : Nat) (m : Lma) : Nat × Lma :=
  let id := freshRegion m
  let pages := m.free.take n
  (id, { m with
    free := m.free.drop n
    mem := zeroPages pages m.mem
    regions := Mem.set none m.regions id (some ⟨owner, pages⟩) })

/-- Free a region: its pages return to the free pool (R68). -/
def freeRegion (id : Option Nat) (m : Lma) : Lma :=
  match id with
  | none => m
  | some k =>
    { m with free := (regionPages m id).foldl (fun f p => insertNat p f) m.free, regions := Mem.drop m.regions k }

/-- Change the owner of a region (R62). -/
def setOwner (id : Option Nat) (o : Owner) (m : Lma) : Lma :=
  match id with
  | none => m
  | some k => { m with regions := Mem.modify none m.regions k (fun r => r.map (fun r => { r with owner := o })) }

/-- The ids of the regions whose owner a predicate picks, in ascending order. -/
def regionsOf (p : Owner → Bool) (m : Lma) : List Nat :=
  m.regions.filterMap (fun e => match e.2 with | some r => if p r.owner then some e.1 else none | none => none)

/-- Does a buffer's slot own this region? -/
def Owner.ofBuffer (bid : BufId) : Owner → Bool
  | .slot b' _ => decide (b' = bid)
  | _ => false

/-- Does a tail or a remnant own this region? -/
def Owner.ofTail : Owner → Bool
  | .slot _ _ => false
  | _ => true

/-- Free every region a predicate picks. -/
def freeRegions (p : Owner → Bool) (m : Lma) : Lma := (regionsOf p m).foldl (fun m k => freeRegion (some k) m) m

/-- A buffer enters EMPTY: its chain record is discarded and its slots' regions freed (R47, R68). -/
def emptyBuffer (bid : BufId) (s : State) : State :=
  let s := modBuf bid (fun _ => {}) (withLma (freeRegions (Owner.ofBuffer bid)) s)
  withTne (fun t => { t with tails := t.tails.map (fun tl =>
    if (tl.source.map (·.1)) = some bid then { tl with source := none } else tl) }) s

/-! ## Cuts (R74) -/

/-- The lowest free remnant place (R74). -/
def freePlace (t : Tne) : Option Nat := [0, 1, 2, 3].find? (fun k => (Mem.get none t.remnants k).isNone)

/-- The remnants there are. -/
def remnantList (t : Tne) : List Remnant := t.remnants.filterMap (·.2)

/-- The wet gain a remnant takes from the tail that is cut: toward 0 over 256, unless it is in DECAY with 256 or less
to go (R74). -/
def cutRamp (tl : Tail) : Ramp :=
  if tl.phase = .decay ∧ tl.voice.wet.count ≤ 256 then tl.voice.wet else tl.voice.wet.restart 0 256

/-- Cut a record of the tail set with remnant place `place` free (R74). -/
def cutInto (place : Nat) (tl : Tail) (s : State) : State :=
  let s := withTne (fun t => { t with tails := t.tails.filter (fun u => u.index ≠ tl.index) }) s
  if tl.voice.wet.v = 0 ∧ tl.voice.wet.count = 0 then withLma (freeRegion tl.voice.region) s
  else
    let g : Remnant := { kind := tl.kind, voice := { tl.voice with wet := cutRamp tl }, counted := tl.counted }
    withLma (setOwner tl.voice.region (.remnant place))
      (withTne (fun t => { t with remnants := Mem.set none t.remnants place (some g) }) s)

/-- Cut the oldest marked record if a remnant place is free; the cut is made on the recall's behalf (R74, R78;
the note comes with the cut and not with the mark: DEDUCED, log 51). -/
def cutOldestMarked (s : State) : State :=
  match s.tne.tails.find? (·.marked), freePlace s.tne with
  | some tl, some place => noteFlight noteTailsCut (cutInto place tl s)
  | _, _ => s

/-- Cut every marked record for which a place is free, oldest first. -/
def cutMarked (s : State) : State := cutOldestMarked (cutOldestMarked (cutOldestMarked (cutOldestMarked s)))

/-- Mark the oldest unmarked record (R65, R76). -/
def markOldest : List Tail → List Tail
  | [] => []
  | tl :: rest => if tl.marked then tl :: markOldest rest else { tl with marked := true } :: rest

/-- Mark records, oldest first, until a measure of the tail set reaches what is needed or none is left; a set holds at most
four, so four rounds do. -/
def markUntil (enough : List Tail → Bool) : Nat → List Tail → List Tail
  | 0, l => l
  | n + 1, l => if enough l then l else markUntil enough n (markOldest l)

/-- The marks on records not yet cut are cleared (R65, R67). -/
def clearMarks (s : State) : State :=
  withTne (fun t => { t with tails := t.tails.map (fun tl => { tl with marked := false }) }) s

/-! ## Request lists (R64 to R67) -/

/-- The pages of a voice's region. -/
def voicePages (m : Lma) (v : Voice) : Nat := (regionPages m v.region).length

/-- The pages that come free without taking anything from a chain (R65). -/
def comingPages (s : State) (tails : List Tail) : Nat :=
  s.lma.free.length + ((remnantList s.tne).map (fun g => voicePages s.lma g.voice)).sum +
    ((tails.filter (·.marked)).map (fun tl => voicePages s.lma tl.voice)).sum

/-- A short request marks tails and cuts those it can (R65). -/
def markForPages (need : Nat) (s : State) : State :=
  cutMarked (withTne (fun t => { t with
    tails := markUntil (fun l => decide (need ≤ comingPages s l)) 4 t.tails }) s)

/-- A slot takes its region, or none: its write positions are 0, and its THRU state and delay clamp are decided from the
granted length (R63). -/
def takeRegion (bid : BufId) (slot : Nat) (id : Option Nat) (s : State) : State :=
  modSlot bid slot (fun sl =>
    let sl := { sl with voice := { sl.voice with region := id, pos := [] } }
    let sl :=
      if sl.kind = .delay then
        { sl with voice := { sl.voice with a := Ramp.at (delayTarget s.tmp.beat (regionLen s.lma id) sl.run) } }
      else sl
    { sl with thru := slotThru s.tne s.lma sl }) s

/-- Does the region of a DELAY slot hold fewer samples than the delay asked for (R30)? -/
def slotShort (s : State) (sl : Slot) : Bool :=
  decide (sl.kind = .delay ∧ delayTarget s.tmp.beat (regionLen s.lma sl.voice.region) sl.run < delayAsked s.tmp.beat sl.run)

/-- Is the slot one whose delay its region clamps (R30)? -/
def delayShort (bid : BufId) (slot : Nat) (s : State) : Bool := ((slotAt s bid slot).map (slotShort s)).getD false

/-- Does a region that a slot of the buffer already holds clamp its delay (R30)? -/
def bufferShort (bid : BufId) (s : State) : Bool :=
  (buf s bid).chain.slots.any (fun sl => sl.voice.region.isSome && slotShort s sl)

/-- Grant `n` pages to a slot of the build buffer (R63); for 0 pages the slot has no region. A delay clamped for want of
samples is noted PAGES_CLAMPED (R30; DEDUCED, log 48). -/
def grantSlot (slot n : Nat) (s : State) : State :=
  if n = 0 then takeRegion s.rcu.build slot none s
  else
    let g := grantRegion (.slot s.rcu.build slot) n s.lma
    let s := takeRegion s.rcu.build slot (some g.1) { s with lma := g.2 }
    if delayShort s.rcu.build slot s then noteFlight notePagesClamped s else s

/-- The head of the list has been granted or handled: it leaves the list, and the marks are cleared (R65). -/
def dropHead (s : State) : State := clearMarks (withLma (fun m => { m with requests := m.requests.map List.tail }) s)

/-- Serve the request list from its head: a request that fits is granted at once, a short one waits (R64, R65). -/
def serveList : Nat → State → State
  | 0, s => s
  | n + 1, s =>
    match s.lma.requests with
    | some (r :: _) =>
      if r.pages ≤ s.lma.free.length then serveList n (dropHead (grantSlot r.slot r.pages s))
      else markForPages r.pages s
    | _ => s

/-- Serve the list; it has at most 12 requests. -/
def serve (s : State) : State := serveList 12 s

/-- The request list of a chain (R64). -/
def requestList (slots : List Slot) : List PageReq :=
  (slots.mapIdx (fun i sl => (⟨i, pagesAsked sl.kind sl.run⟩ : PageReq))).filter (fun r => r.pages ≠ 0)

/-- Hand over a request list and serve it. -/
def handList (l : List PageReq) (s : State) : State := serve (withLma (fun m => { m with requests := some l }) s)

/-- The list is withdrawn: its requests are discarded and its marks cleared (R67). -/
def withdrawList (s : State) : State :=
  match s.lma.requests with
  | none => s
  | some _ => clearMarks (withLma (fun m => { m with requests := none }) s)

/-- The head request of the list. -/
def headRequest (s : State) : Option PageReq := s.lma.requests.bind List.head?

/-- A short head request can be granted whole (R65). -/
def grantDue (s : State) : Bool :=
  match headRequest s with
  | some r => decide (r.pages ≤ s.lma.free.length)
  | none => false

/-- A short head request is handled by R66: no remnant exists and every tail is gone, whatever the clock (DESIGN CHOICE, log
50). -/
def clampDue (s : State) : Bool :=
  match headRequest s with
  | some r => decide (s.lma.free.length < r.pages) && (remnantList s.tne).isEmpty && s.tne.tails.isEmpty
  | none => false

/-- The head request is handled by R66: DELAY and MOD take every free page, REVERB none. -/
def clampHead (s : State) : State :=
  match headRequest s with
  | none => s
  | some r =>
    let n := match slotAt s s.rcu.build r.slot with
      | some sl => if sl.kind = .reverb then 0 else s.lma.free.length
      | none => 0
    noteFlight notePagesClamped (dropHead (grantSlot r.slot n s))

/-! ## Detach and admission (R70 to R72) -/

/-- The hold of a TRAILING slot has run out: its wet gain falls over 256 (R50). -/
def trailExpire (sl : Slot) : Slot :=
  { sl with falling := true, voice := { sl.voice with wet := sl.voice.wet.restart 0 256 } }

/-- Is the slot offered for detach (R70)? -/
def detachable (sl : Slot) : Bool :=
  sl.kind.spills && sl.spill && sl.voice.region.isSome && !sl.stub && decide (sl.bypass ≠ .bypassed)

/-- The tail record a slot makes (R70); a trail hold whose end is still due at it ends first (DESIGN CHOICE, log 2). -/
def tailOf (bid : BufId) (i index preset : Nat) (sl : Slot) : Tail :=
  let sl := if sl.bypass = .trailing ∧ sl.hold = 0 ∧ sl.falling = false then trailExpire sl else sl
  let voice := { sl.voice with input := sl.voice.input.restart 0 64 }
  let wet := Ramp.at (gainProduct sl.voice.wet.v sl.engage.v).y
  if sl.bypass = .trailing ∧ sl.falling then
    { index := index, preset := preset, kind := sl.kind, voice := voice, hold := 0, phase := .decay, source := some (bid, i) }
  else
    { index := index, preset := preset, kind := sl.kind, voice := { voice with wet := wet },
      hold := if sl.bypass = .trailing then sl.hold else holdSamples sl, phase := .ringing, source := some (bid, i) }

/-- What a detached slot leaves: its dry path (R72). -/
def stubOf (sl : Slot) : Slot := { sl with stub := true, voice := { dry := sl.voice.dry } }

/-- The lowest tail index not in use (R69). -/
def freshTail (tails : List Tail) : Nat :=
  ([0, 1, 2, 3].find? (fun k => tails.all (fun tl => tl.index ≠ k))).getD 0

/-- An offered slot becomes the newest tail record. -/
def admitTail (bid : BufId) (i : Nat) (sl : Slot) (s : State) : State :=
  let tl := tailOf bid i (freshTail s.tne.tails) (buf s bid).chain.preset sl
  let s := withTne (fun t => { t with tails := t.tails ++ [tl] }) s
  modSlot bid i stubOf (withLma (setOwner sl.voice.region (.tail tl.index)) s)

/-- Offer slot `i` of a buffer for detach: admission by R71. -/
def offerSlot (bid : BufId) (i : Nat) (s : State) : State :=
  match slotAt s bid i with
  | none => s
  | some sl =>
    if !detachable sl then s
    else if s.tne.tails.length < 4 then admitTail bid i sl s
    else
      match s.tne.tails, freePlace s.tne with
      | oldest :: _, some place => admitTail bid i sl (noteFlight noteTailsCut (cutInto place oldest s))
      | _, _ => noteFlight noteTailsCut s

/-- Detach the spill slots of a buffer in chain order (R70). -/
def detachAll (bid : BufId) (s : State) : State := forAll (List.range 12) (offerSlot bid) s

/-- The costs of the tail records and of the remnants (R59). -/
def tailsCost (t : Tne) : Nat :=
  (t.tails.map (fun tl => tl.kind.cost)).sum + ((remnantList t).map (fun g => g.kind.cost)).sum

/-- At the midpoint of a dip a slot is offered only while the incoming chain and all the tails admitted at this midpoint, with
the slot itself, fit; one not offered stops with its chain (R146). The pair holds the state and the costs of the tails
admitted so far: a tail that a later admission cuts stays counted. An admitted slot is a stub afterwards (R72). -/
def offerWithin (incoming : Nat) (bid : BufId) (e : State × Nat) (i : Nat) : State × Nat :=
  match slotAt e.1 bid i with
  | none => e
  | some sl =>
    if !detachable sl then e
    else if incoming + e.2 + sl.kind.cost ≤ 2048 then
      let s := offerSlot bid i e.1
      (s, if (slotAt s bid i).any (·.stub) then e.2 + sl.kind.cost else e.2)
    else (noteFlight noteTailsCut e.1, e.2)

/-- Detach at the midpoint of a dip (R146). -/
def detachWithin (incoming : Nat) (bid : BufId) (s : State) : State := ((List.range 12).foldl (offerWithin incoming bid) (s, 0)).1

/-! ## Budget releases (R76) -/

/-- The units that will be released without taking anything from a chain (R76). -/
def comingUnits (t : Tne) (tails : List Tail) : Nat :=
  ((remnantList t).map (fun g => g.kind.cost)).sum + ((tails.filter (·.marked)).map (fun tl => tl.kind.cost)).sum

/-- Is something counted by the release still there? -/
def countedLeft (t : Tne) : Bool := t.tails.any (·.counted) || (remnantList t).any (·.counted)

/-- Ask for the release of `u` units: the answer is the count reached (R76). The completion is given at once when nothing
counted is left. -/
def askRelease (u : Nat) (s : State) : State × Nat :=
  let tails := markUntil (fun l => decide (u ≤ comingUnits s.tne l)) 4 s.tne.tails
  let count := comingUnits s.tne tails
  let s := withTne (fun t => { t with
    tails := tails.map (fun tl => { tl with counted := tl.marked })
    remnants := t.remnants.map (fun e => (e.1, e.2.map (fun g => { g with counted := true }))) }) s
  let s := cutMarked s
  (withTne (fun t => { t with release := countedLeft t }) s, count)

/-- Withdraw a release: the marks are cleared and no completion is given (R76). -/
def withdrawRelease (s : State) : State :=
  if s.tne.release then
    withTne (fun t => { t with
      release := false
      tails := t.tails.map (fun tl => { tl with counted := false })
      remnants := t.remnants.map (fun e => (e.1, e.2.map (fun g => { g with counted := false }))) }) (clearMarks s)
  else s

/-- The completion of a release is due (R76). -/
def releaseDue (s : State) : Bool := s.tne.release && !countedLeft s.tne

/-! ## Ends of tails and remnants -/

/-- A tail record is freed with its region (R73). -/
def freeTail (tl : Tail) (s : State) : State :=
  withLma (freeRegion tl.voice.region)
    (withTne (fun t => { t with tails := t.tails.filter (fun u => u.index ≠ tl.index) }) s)

/-- A remnant is freed with its region (R75). -/
def freeRemnant (place : Nat) (g : Remnant) (s : State) : State :=
  withLma (freeRegion g.voice.region) (withTne (fun t => { t with remnants := Mem.drop t.remnants place }) s)

/-- Change the record of the tail set with an index. -/
def modTail (index : Nat) (f : Tail → Tail) (s : State) : State :=
  withTne (fun t => { t with tails := t.tails.map (fun tl => if tl.index = index then f tl else tl) }) s

/-- The pages still held by regions are set to zero (R77). -/
def zeroHeld (m : Lma) : Lma :=
  let pages := m.regions.flatMap (fun e => match e.2 with | some r => r.pages | none => [])
  { m with mem := zeroPages pages m.mem }

/-- Every tail record and remnant is freed with its region, and the pages still held are set to zero (R13, R77). -/
def clearTails (s : State) : State :=
  let s := withTne (fun t => { t with tails := [], remnants := [], release := false }) s
  withLma (fun m => zeroHeld (freeRegions Owner.ofTail m)) s

end Sys2Proof.Machine
end

