-- ==== Sys2Proof/Machine/Pitch.lean ====
section
/-! DEFINITION. The Tuner Unit: pre-filter, crossings, spans, note table, lock machine, display records and tune mode
(chapter 5). -/

namespace Sys2Proof.Machine

/-- Set the Tuner Unit. -/
def withTun (f : Tun → Tun) (s : State) : State := { s with tun := f s.tun }

/-- A tuner channel. -/
def chan (s : State) : ChanId → Channel
  | .t1 => s.tun.t1
  | .t2 => s.tun.t2

/-- Change a tuner channel. -/
def modChan (ch : ChanId) (f : Channel → Channel) (s : State) : State :=
  match ch with
  | .t1 => withTun (fun t => { t with t1 := f t.t1 }) s
  | .t2 => withTun (fun t => { t with t2 := f t.t2 }) s

/-- The input lane of a channel (R79). -/
def laneOf : ChanId → Nat
  | .t1 => 1
  | .t2 => 2

/-- Is the lane of a channel SILENT? -/
def chanSilent (s : State) (ch : ChanId) : Bool := (inLane s (laneOf ch)).silence.silent

/-! ## Filter, crossings and spans (R79 to R81) -/

/-- The span measurement takes a crossing at time `t`; the ninth completes a span (R81). -/
def Channel.takeCrossing (t : Int) (c : Channel) : Channel :=
  match c.record with
  | none => { c with record := some (t, 0) }
  | some (c1, k) =>
    if k < 7 then { c with record := some (c1, k + 1) } else { c with record := some (t, 0), span := some (t - c1) }

/-- The time of a crossing between the samples y₀ and y₁, y₁ being sample number n (R80). -/
def crossingTime (n : Nat) (y0 y1 : Int) : Int := 16 * ((n : Int) - 1) + 16 * (-y0) / (y1 - y0)

/-- A raw sample: filter, crossing detector, and the span measurement while the lane is SIGNAL (R79, R80). -/
def Channel.sample (x : Int) (silent : Bool) (c : Channel) : Channel :=
  let y1 := c.y + (x - c.y) / 16
  let n := c.n + 1
  let moved := { c with y := y1, n := n, yPrev := y1 }
  if c.armed then
    if y1 < 0 then moved
    else
      let found := { moved with armed := false }
      if silent then found else found.takeCrossing (crossingTime n c.yPrev y1)
  else { moved with armed := decide (y1 < -32768) }

/-- Is a span valid (R81)? -/
def spanValid (span : Int) : Bool := decide (4096 ≤ span ∧ span ≤ 204800)

/-! ## The note table (R86, R87) -/

/-- ratio_n of the twelve notes, C first. -/
def noteRatio : List Nat :=
  [110218, 104032, 98194, 92682, 87480, 82570, 77935, 73562, 69433, 65536, 61858, 58386]

/-- The span of note 0..71, C1 to B6, at a reference. -/
def noteSpan (ref note : Nat) : Nat :=
  let s4 := 61440000 / ref * noteRatio.getD (note % 12) 0 / 65536
  let octave := note / 12 + 1
  if octave ≤ 4 then s4 * 2 ^ (4 - octave) else s4 / 2 ^ (octave - 4)

/-- The distance of a span from a note's. -/
def noteDistance (ref : Nat) (span : Int) (note : Nat) : Nat := (span - noteSpan ref note).natAbs

/-- The nearest note of a span; at equal distance the higher note. -/
def nearestNote (ref : Nat) (span : Int) : Nat :=
  (List.range 72).foldl (fun best k => if noteDistance ref span k ≤ noteDistance ref span best then k else best) 0

/-- The cents of a span against a note. -/
def centsOf (ref : Nat) (span : Int) (note : Nat) : Int :=
  clampInt (-50) 50 ((2 * 1731 * ((noteSpan ref note : Int) - span) + span) / (2 * span))

/-- The result of a completed span: note and cents, or a range miss. -/
def spanResult (ref : Nat) (span : Int) : Option (Nat × Int) :=
  if spanValid span then some (nearestNote ref span, centsOf ref span (nearestNote ref span)) else none

/-! ## The lock machine and the display record (R88 to R92) -/

/-- Is a result a HIT against a note and cents? -/
def isHit (note : Nat) (cents : Int) (r : Option (Nat × Int)) : Bool :=
  match r with
  | some (n, c) => decide (n = note ∧ (c - cents).natAbs ≤ 25)
  | none => false

/-- The shown cents after a result. -/
def shownAfter (note : Nat) (shown : Int) (r : Option (Nat × Int)) : Int :=
  match r with
  | some (_, c) => if isHit note shown r then (3 * shown + c + 2) / 4 else shown
  | none => shown

/-- The last `w` entries of a window. -/
def trimWindow (w : Nat) (win : List Bool) : List Bool := win.drop (win.length - w)

/-- The lock machine takes a result: `none` is a miss (R88, R89, R90). -/
def lockStep (w : Nat) (r : Option (Nat × Int)) : LockState → LockState
  | .search =>
    match r with
    | some (n, c) => .acquire n 1 c
    | none => .search
  | .acquire note k prev =>
    match r with
    | some (n, c) =>
      if isHit note prev r then (if k + 1 = 3 then .locked note c [] else .acquire note (k + 1) c) else .acquire n 1 c
    | none => .search
  | .locked note shown win =>
    if w = 0 then .locked note (shownAfter note shown r) []
    else
      let win' := trimWindow w (win ++ [isHit note shown r])
      if 2 ≤ win'.count false then .search else .locked note (shownAfter note shown r) win'

/-- The lock state a report carries. -/
def LockState.tag : LockState → LockTag
  | .search => .search
  | .acquire .. => .acquire
  | .locked .. => .locked

/-- The display record when the lock machine goes from one state to another (R92). -/
def displayAfter (old new : LockState) (d : Display) : Display :=
  match new, old with
  | .locked n shown _, _ => .live n shown
  | _, .locked n shown _ => .held n shown
  | _, _ => d

/-- The lock machine of a channel goes to a state: its display record follows, and TUNER_LOCK is posted when it enters or
leaves LOCKED (R92, R99). -/
def setLock (ch : ChanId) (new : LockState) (s : State) : State :=
  let old := (chan s ch).lock
  let display := displayAfter old new (chan s ch).display
  let s := modChan ch (fun c => { c with lock := new, display := display }) s
  if old.tag = .locked ↔ new.tag = .locked then s else post (.tunerLock ch new.tag display) s

/-- A result is handed to a channel's lock machine. -/
def feedLock (ch : ChanId) (r : Option (Nat × Int)) (s : State) : State :=
  setLock ch (lockStep s.tun.window r (chan s ch).lock) s

/-! ## Silence (R15, R83) -/

/-- A lane enters SILENT: the crossing record and an unfinished span are dropped, the timer stops, and a silence miss sends
the lock machine to SEARCH (R83). -/
def silenceMiss (ch : ChanId) (s : State) : State :=
  setLock ch .search (modChan ch (fun c => { c with record := none, span := none, timer := false }) s)

/-- A channel hears of its lane's silence detector. -/
def tellChannel (ch : ChanId) (silent : Bool) (s : State) : State :=
  if silent then silenceMiss ch s else modChan ch (fun c => { c with timer := true }) s

/-- A change of a lane's silence detector: lanes 1 and 2 post SILENCE and tell their channel (R15). -/
def silenceChanged (lane : Nat) (silent : Bool) (s : State) : State :=
  if lane = 1 then tellChannel .t1 silent (post (.silence 1 silent) s)
  else if lane = 2 then tellChannel .t2 silent (post (.silence 2 silent) s)
  else s

/-! ## The reference pitch (R85) -/

/-- A reference is taken; a changed one recomputes the tone increment and sends both lock machines to SEARCH. The note
table is a function of the reference (R86). T1 leaves LOCKED before T2 (DESIGN CHOICE, log 52). -/
def setReference (ref : Nat) (s : State) : State :=
  if ref = s.tun.ref then s
  else
    let s := withTun (fun t => { t with ref := ref }) s
    let s := withAup (fun a => { a with toneInc := toneStep ref }) s
    setLock .t2 .search (setLock .t1 .search s)

/-- A window length is taken; each channel's window is trimmed (R91). -/
def setWindow (w : Nat) (s : State) : State :=
  let f := fun c : Channel => match c.lock with
    | .locked n shown win => { c with lock := .locked n shown (trimWindow w win) }
    | _ => c
  modChan .t2 f (modChan .t1 f (withTun (fun t => { t with window := w }) s))

/-! ## Tune mode (R93 to R96) -/

/-- The channel whose measurements are reported (R95). -/
def selected (s : State) : ChanId :=
  match s.tun.mode.channel with
  | .t1 => .t1
  | .t2 => .t2
  | .follow =>
    match activeBuf s with
    | none => .t1
    | some bid => if (buf s bid).chain.input = .lane2 then .t2 else .t1

/-- Bring TUNE in the mute set, the tune override and F6 into line with the tune mode record (R94, R96). -/
def alignTune (s : State) : State :=
  let m := s.tun.mode
  let s := changeMute (fun r => { r with tune := m.on && decide (m.policy ≠ .live) }) s
  setF6 m.on (setOverride (m.on && decide (m.policy = .dry)) s)

/-- The tune mode record is changed, and its effects follow. -/
def changeTune (f : TuneMode → TuneMode) (s : State) : State :=
  alignTune (withTun (fun t => { t with mode := f t.mode }) s)

/-- The recall-done notice (R97). -/
def recallDoneNotice (s : State) : State :=
  if s.tun.mode.exitOnRecall && s.tun.mode.on then changeTune (fun m => { m with on := false }) s else s

/-! ## The clock and RESTART (R84) -/

/-- A channel at the clock-running notice; a completed span not yet taken goes with its record (DEDUCED, log 53). -/
def Channel.clockRunning (silent : Bool) (c : Channel) : Channel :=
  { c with y := 0, armed := false, yPrev := 0, record := none, span := none, timer := !silent }

/-- A channel at RESTART. -/
def Channel.restarted (silent : Bool) : Channel := { timer := !silent }

end Sys2Proof.Machine
end

