-- ==== Sys2Proof/Machine/Recalls.lean ====
section
/-! DEFINITION. The Recall Unit: taking recalls and scenes, build, relays, fade, completion, boot recall (chapter 8), and
the outcome notices it gives the Switch Controller (R127, R128). -/

namespace Sys2Proof.Machine

/-- Set the Recall Unit. -/
def withRcu (f : Rcu → Rcu) (s : State) : State := { s with rcu := f s.rcu }

/-- Change the recall in flight. -/
def withFlight (f : Recall → Recall) (s : State) : State := withRcu (fun u => { u with flight := u.flight.map f }) s

/-! ## Outcomes (R127, R128) -/

/-- The outcome of a recall. -/
inductive Ending where
  | done | superseded | failed (code : Code)
deriving DecidableEq, Repr

/-- BINDING_FAILED on a FAILED outcome. -/
def bindingFailed (index : Nat) (e : Ending) (s : State) : State :=
  match e with
  | .failed c => post (.bindingFailed index (.code c)) s
  | _ => s

/-- The outcome notice of a FLIP firing: it leaves the in-flight list, and DONE toggles the pointer; a notice for a firing no
longer on the list is disregarded (R128). -/
def flipOutcome (index firing : Nat) (e : Ending) (s : State) : State :=
  let f := Mem.get {} s.swc.flips index
  if f.inFlight.contains firing then
    let f' : Flip := { pointer := if e = .done then !f.pointer else f.pointer, inFlight := f.inFlight.filter (· ≠ firing) }
    bindingFailed index e { s with swc := { s.swc with flips := Mem.set {} s.swc.flips index f' } }
  else s

/-- The outcome notice of a recall the Switch Controller handed over (R127). -/
def outcomeNotice (o : Origin) (e : Ending) (s : State) : State :=
  match o with
  | .binding i => bindingFailed i e s
  | .momentary i => bindingFailed i e s
  | .ret (.binding i) => bindingFailed i e s
  | .flip i n => flipOutcome i n e s
  | _ => s

/-- Does a recall of this origin, completed OK, empty the return stack (R127)? -/
def Origin.emptiesStack : Origin → Bool
  | .momentary _ => false
  | .ret _ => false
  | _ => true

/-- Empty the return stack where the origin calls for it. -/
def emptyStack (o : Origin) (s : State) : State :=
  if o.emptiesStack then { s with swc := { s.swc with stack := [] } } else s

/-- Answer a joined SCENE request. -/
def answerJoined (j : Option Joined) (code : Code) (s : State) : State :=
  match j with
  | some j => answerCode j.dest code s
  | none => s

/-- A recall is answered SUPERSEDED, with its joined SCENE request, or given that outcome (R141, R143). -/
def supersedeAnswer (r : Recall) (s : State) : State :=
  outcomeNotice r.origin .superseded (answerJoined r.joined .superseded (answerCode r.dest .superseded s))

/-- The answers of a failed recall (R148). -/
def failAnswer (r : Recall) (code : Code) (s : State) : State :=
  let s := outcomeNotice r.origin (.failed code) (answerJoined r.joined code (answerCode r.dest code s))
  post (.recallFailed (some r.preset) r.scene code r.origin) s

/-! ## Fetch and the boot recall (R137, R149) -/

/-- A recall becomes the recall in flight and its record is read (R137). -/
def startFetch (r : Recall) (s : State) : State :=
  let n := s.rcu.readNo + 1
  enqueueRead ⟨.recall n, r.preset⟩
    (withRcu (fun u => { u with
      flight := some r
      state := .fetching
      readNo := n
      fadeDue := false
      swapped := false
      dip := false
      joinedDue := false }) s)

/-- The boot preset of the GLOBALS record, at the place it has in a body of R155's length (DEDUCED, log 6); 0 where GLOBALS is absent
(R149), and where the record is too short to hold the byte (DESIGN CHOICE, log 78). -/
def bootOf (p : Pst) : Nat :=
  match entry p keyGlobals with
  | none => 0
  | some d => rd (bodyOf p d) 184

/-- The boot recall of a preset. -/
def bootRequest (preset : Nat) : Recall :=
  { preset := preset, scene := 0, quant := some false, origin := .boot, boot := true }

/-- The empty chain goes into buffer A as READY, and the fade starts at the next block boundary (R149). -/
def loadEmpty (preset : Nat) (s : State) : State :=
  let s := modBuf .a (fun _ => { state := .ready, chain := { preset := preset } }) s
  withRcu (fun u => { u with
    flight := some { bootRequest preset with kind := .empty }
    state := .loading
    build := .a
    fadeDue := true
    swapped := false
    dip := false
    joinedDue := false }) s

/-- Start the boot recall (R149). -/
def startBoot (s : State) : State :=
  let s := withRcu (fun u => { u with bootDue := false }) s
  let preset := bootOf s.pst
  match entry s.pst preset with
  | some _ => startFetch (bootRequest preset) s
  | none => loadEmpty preset s

/-! ## Taking recalls (R134, R135, R141, R143) -/

/-- A recall supersedes the recall in flight (R141). -/
def supersede (r : Recall) (s : State) : State :=
  match s.rcu.flight with
  | none => startFetch r s
  | some old =>
    let s := supersedeAnswer old s
    let st := (buf s s.rcu.build).state
    let s := if st = .loading ∨ st = .ready then emptyBuffer s.rcu.build (withdrawList s) else s
    startFetch { r with boot := r.boot || old.boot } s

/-- A recall goes to the pending slot (R143). -/
def putPending (r : Recall) (s : State) : State :=
  let s := match s.rcu.pending with
    | some old => supersedeAnswer old s
    | none => s
  withRcu (fun u => { u with pending := some r }) s

/-- Would the recall be scene-only, the lookup having given generation `gen` (R135)? -/
def sceneOnlyOf (s : State) (r : Recall) (gen : Nat) : Bool :=
  match activeBuf s with
  | none => false
  | some bid =>
    let c := (buf s bid).chain
    decide (c.preset = r.preset ∧ c.gen = gen ∧ c.edited = false)

/-- The number of scenes the ACTIVE buffer holds. -/
def activeScenes (s : State) : Nat :=
  match activeBuf s with
  | some bid => (buf s bid).chain.scenes.length
  | none => 0

/-- A joined scene that the buffer does not hold is answered NOT_FOUND, and the recall keeps the scene it had before
(R142). -/
def settleJoined (scenes : Nat) (r : Recall) (s : State) : Recall × State :=
  match r.joined with
  | none => (r, s)
  | some j => if r.scene < scenes then (r, s) else ({ r with scene := j.before, joined := none }, answerCode j.dest .notFound s)

/-- A scene-only recall waits for the block boundary (R135). -/
def waitSceneOnly (r : Recall) (s : State) : State :=
  let x := settleJoined (activeScenes s) r s
  withRcu (fun u => { u with waiting := u.waiting ++ [.sceneOnly x.1] }) x.2

/-- A recall that has passed its lookup is taken by state (R134). -/
def takeByState (r : Recall) (gen : Nat) (s : State) : State :=
  match s.rcu.state with
  | .idle => if sceneOnlyOf s r gen then waitSceneOnly r s else startFetch r s
  | .fading => putPending r s
  | _ => supersede r s

/-- A recall is looked up and taken by state, or fails (R134, R148). -/
def takeRecall (r : Recall) (s : State) : State :=
  if s.pst.scanning then failAnswer r .notReady s
  else
    match entry s.pst r.preset with
    | none => failAnswer r .notFound s
    | some d => takeByState r d.gen s

/-! ## Build, relays and arming (R137 to R140) -/

/-- The relay set of a recall in its build buffer (R138). -/
def recallRelays (c : Chain) : Option RelaySet := ((c.scenes.getD c.scene {}).relays).or c.relays

/-- Is the recall quantized (R134)? -/
def quantized (s : State) : Bool :=
  match s.rcu.flight with
  | none => false
  | some r => r.quant.getD (buf s s.rcu.build).chain.quantize

/-- The unit enters ARMED, or starts the fade at the next block boundary (R138, R139). -/
def armOrFade (s : State) : State :=
  if quantized s then withRcu (fun u => { u with state := .armed, fadeDue := false }) s
  else withRcu (fun u => { u with fadeDue := true }) s

/-- A relay set is handed over and waited for (R139). -/
def enterRelays (r : RelaySet) (s : State) : State :=
  match handRelaySet r s with
  | (s, ticket, done) =>
    let s := withRcu (fun u => { u with state := .relays, ticket := ticket, fadeDue := false }) s
    if done then armOrFade s else s

/-- The relay set of the build, where it differs from the driver's current set. -/
def newRelays (s : State) : Option RelaySet :=
  match recallRelays (buf s s.rcu.build).chain with
  | none => none
  | some r => if r = s.acd.requested then none else some r

/-- The build is complete: the buffer is READY, and the unit chooses its next state (R138). -/
def buildComplete (s : State) : State :=
  let s := modBuf s.rcu.build (fun u => { u with state := .ready }) (withLma (fun m => { m with requests := none }) s)
  match newRelays s with
  | some r => enterRelays r s
  | none => armOrFade s

/-- After the request list has been served: a list with nothing left completes the build (R64, R138). -/
def buildCheck (s : State) : State :=
  match s.lma.requests with
  | some [] => buildComplete s
  | _ => s

/-- Relay completions given: the one waited for in RELAYS lets the recall go on (R139). -/
def relayCompletions (tickets : List Nat) (s : State) : State :=
  if s.rcu.state = .relays ∧ s.rcu.fadeDue = false ∧ tickets.contains s.rcu.ticket then armOrFade s else s

/-- The buffer a build goes into: the EMPTY one, A when both are (R137). -/
def buildBuffer (s : State) : BufId := if s.tne.bufA.state = .empty then .a else .b

/-- The read of the recall in flight has failed: the unit is IDLE, and a boot role passes to a new boot recall (R148). -/
def readFailed (n : Nat) (code : Code) (s : State) : State :=
  match s.rcu.flight with
  | none => s
  | some r =>
    if s.rcu.state = .fetching ∧ s.rcu.readNo = n then
      let s := failAnswer r code (withRcu (fun u => { u with flight := none, state := .idle }) s)
      if r.boot then startBoot s else s
    else s

/-- The arbiter goes on, and each recall read that it finds absent fails in its turn, before the reads behind it (R148, R158). -/
def arbitrateReads : Nat → State → State
  | 0, s => s
  | n + 1, s =>
    let s := arbitrate s
    match absentRead s with
    | some k => arbitrateReads n (readFailed k .notFound (dropRead s))
    | none => s

/-- The build buffer takes a chain record and its request list is handed over (R137). -/
def beginBuild (r : Recall) (c : Chain) (gen : Nat) (s : State) : State :=
  let bid := buildBuffer s
  let x := settleJoined c.scenes.length r s
  let s := x.2
  let c := setupChain s.tne s.lma s.tmp.beat x.1.scene { c with preset := r.preset, gen := gen }
  let s := modBuf bid (fun _ => { state := .loading, chain := c }) s
  let s := withRcu (fun u => { u with flight := some x.1, state := .loading, build := bid }) s
  buildCheck (handList (requestList c.slots) s)

/-- The record of the recall in flight arrives (R137); an answer to an older read is discarded (R141), and an image that is
no chain record fails as NOT_FOUND (DESIGN CHOICE, log 9). -/
def recordArrival (n : Nat) (image : List Byte) (gen : Nat) (s : State) : State :=
  match s.rcu.flight with
  | none => s
  | some r =>
    if s.rcu.state = .fetching ∧ s.rcu.readNo = n then
      match parsePreset false image with
      | none => readFailed n .notFound s
      | some (c, _) => beginBuild r c gen s
    else s

/-! ## Scene requests (R136, R142) -/

/-- The recall takes a joined scene: an earlier joined request is answered SUPERSEDED (R142). -/
def joinInto (scene : Nat) (dest : Option Dest) (r : Recall) : Recall :=
  { r with scene := scene, joined := some ⟨dest, r.scene⟩ }

/-- A joined scene reaches a buffer that already holds the record, before the swap. A relay set that the scene changes is
handed over in RELAYS, and sends the unit to RELAYS elsewhere when it differs from the driver's current set (R142). A delay
that a region granted before clamps is noted (R30; DEDUCED, log 48). -/
def joinBuilt (scene : Nat) (s : State) : State :=
  let waitsList := s.lma.requests.isSome
  let before := recallRelays (buf s s.rcu.build).chain
  let s := setupAgain s.rcu.build scene s
  let s := if bufferShort s.rcu.build s then noteFlight notePagesClamped s else s
  match recallRelays (buf s s.rcu.build).chain with
  | none => s
  | some r =>
    if before = some r then s
    else
      match s.rcu.state with
      | .relays => enterRelays r s
      | .armed => if r = s.acd.requested then s else enterRelays r s
      | .loading => if waitsList || decide (r = s.acd.requested) then s else enterRelays r s
      | _ => if r = s.acd.requested then s else handAside (some r) s

/-- A SCENE request joins the recall in flight (R142). -/
def joinFlight (scene : Nat) (dest : Option Dest) (r : Recall) (s : State) : State :=
  let s := answerJoined r.joined .superseded s
  if s.rcu.state = .fetching then withFlight (joinInto scene dest) s
  else
    let bid := if s.rcu.swapped then (activeBuf s).getD s.rcu.build else s.rcu.build
    if scene < (buf s bid).chain.scenes.length then
      let s := withFlight (joinInto scene dest) s
      if s.rcu.state = .fading ∧ s.rcu.swapped then withRcu (fun u => { u with joinedDue := true }) s else joinBuilt scene s
    else answerCode dest .notFound (withFlight (fun r => { r with joined := none }) s)

/-- A SCENE request joins the recall in the pending slot (R142). -/
def joinPending (scene : Nat) (dest : Option Dest) (p : Recall) (s : State) : State :=
  withRcu (fun u => { u with pending := some (joinInto scene dest p) }) (answerJoined p.joined .superseded s)

/-- A SCENE request is taken by state (R136). -/
def takeScene (scene : Nat) (o : Origin) (dest : Option Dest) (s : State) : State :=
  if 3 < scene then answerCode dest .badField s
  else
    match s.rcu.flight with
    | none =>
      if (activeBuf s).isNone then answerCode dest .notReady s
      else if activeScenes s ≤ scene then answerCode dest .notFound s
      else withRcu (fun u => { u with waiting := u.waiting ++ [.scene scene o dest] }) s
    | some r =>
      match s.rcu.pending with
      | some p => joinPending scene dest p s
      | none => joinFlight scene dest r s

/-- Apply a scene to the ACTIVE buffer and hand its relay set aside; the identity takes the scene (R135, R136). -/
def applyWaiting (scene : Nat) (s : State) : State :=
  match activeBuf s with
  | none => s
  | some bid =>
    let s := handAside ((buf s bid).chain.scenes.getD scene {}).relays (applyScene bid scene s)
    withRcu (fun u => { u with ident := { u.ident with scene := scene } }) s

/-- A SCENE request taken in IDLE is carried out at its block boundary; a scene that the buffer then ACTIVE does not hold is not
applied, and the answer is NOT_FOUND (R51, R136). -/
def sceneNow (scene : Nat) (o : Origin) (dest : Option Dest) (s : State) : State :=
  if scene < activeScenes s then answerCode dest .ok (post (.sceneDone scene o) (applyWaiting scene s))
  else answerCode dest .notFound s

/-- The scene joined after the swap is applied, its relay set handed over without waiting (R142). -/
def applyJoined (s : State) : State :=
  match s.rcu.joinedDue, s.rcu.flight, activeBuf s with
  | true, some r, some bid =>
    let before := recallRelays (buf s bid).chain
    let s := withRcu (fun u => { u with joinedDue := false }) (applyScene bid r.scene s)
    match recallRelays (buf s bid).chain with
    | some rel => if before = some rel ∨ rel = s.acd.requested then s else handAside (some rel) s
    | none => s
  | _, _, _ => s

/-! ## Completion (R135, R147) -/

/-- The notices of a recall completed OK, RECALL_DONE and the replies (R147 steps 3 and 4). -/
def completeNotices (r : Recall) (s : State) : State :=
  let tempo := match activeBuf s with | some bid => (buf s bid).chain.tempo | none => none
  let s := presetTempo tempo (recallDoneNotice s)
  let s := emptyStack r.origin (outcomeNotice r.origin .done s)
  let s :=
    if r.boot then changeConds (fun c => { c with starting := false }) (changeMute (fun m => { m with start := false }) s)
    else s
  let preset := s.rcu.ident.preset.getD r.preset
  let s := post (.recallDone preset s.rcu.ident.scene s.rcu.ident.gen r.kind r.origin r.notes) s
  answerJoined r.joined .ok (answer r.dest .ok r.notes .none s)

/-- A scene-only recall completes at its block boundary (R135). -/
def sceneOnlyNow (r : Recall) (s : State) : State :=
  let scene := if r.scene < activeScenes s then r.scene else 0
  completeNotices { r with kind := .sceneOnly } (applyWaiting scene s)

/-- The current identity of the ACTIVE buffer (R132). -/
def identOf (c : Chain) : Identity := { preset := some c.preset, scene := c.scene, gen := c.gen, edited := c.edited }

/-- The recall in flight completes: identity, notices, reports and replies; the unit is IDLE and the pending slot is served
(R147). -/
def complete (s : State) : State :=
  match s.rcu.flight, activeBuf s with
  | some r, some bid =>
    let s := withRcu (fun u => { u with ident := identOf (buf s bid).chain }) s
    let s := completeNotices r s
    let p := s.rcu.pending
    let s := withRcu (fun u => { u with
      flight := none, state := .idle, pending := none, swapped := false, dip := false, fadeDue := false, joinedDue := false }) s
    match p with
    | some p => takeRecall p s
    | none => s
  | _, _ => s

/-! ## The fade (R144 to R146) -/

/-- The cost of a buffer's chain (R59). -/
def bufCost (s : State) (o : Option BufId) : Nat :=
  match o with
  | some bid => slotsCost (buf s bid).chain.slots
  | none => 0

/-- The fade length of the recall in flight (R134). -/
def fadeLength (s : State) : Nat :=
  match s.rcu.flight with
  | some r => r.fade.getD (buf s s.rcu.build).chain.fadeLen
  | none => 0

/-- The length each fade gain of a crossfade takes: the fade length, or 64 for 0 (R145). -/
def fadeSamples (f : Nat) : Nat := if f = 0 then 64 else f

/-- The half length of a dip (R146). -/
def halfSamples (f : Nat) : Nat := if f = 0 then 64 else f / 2

/-- The budget test at the fade start boundary (R144). -/
def startFade (s : State) : State :=
  let s := withRcu (fun u => { u with state := .fading, fadeDue := false, swapped := false, dip := false }) s
  let need := bufCost s (some s.rcu.build) + bufCost s (activeBuf s) + tailsCost s.tne
  if need ≤ 2048 then s
  else
    match askRelease (need - 2048) s with
    | (s, count) =>
      if need - 2048 ≤ count then s
      else
        let h := halfSamples (fadeLength s)
        let s := match activeBuf s with
          | some bid => modChain bid (fun c => { c with fade := c.fade.restart 0 h }) s
          | none => s
        noteFlight noteDipped (withRcu (fun u => { u with dip := true }) s)

/-- Does a slot of the chain run as THRU because a table it names is ABSENT (R54)? -/
def modelMissing (t : Tne) (c : Chain) : Bool := c.slots.any (tableMissing t)

/-- READY becomes ACTIVE and ACTIVE becomes OUTGOING; `detach` takes the spill slots of the leaving buffer; THRU and
the controller map are applied to the new one, and its facts are noted (R145 steps 1 to 3). -/
def swapBuffers (detach : BufId → State → State) (s : State) : State :=
  let new := s.rcu.build
  let old := activeBuf s
  let edits := match old with | some bid => (buf s bid).chain.edited | none => false
  let s := match old with
    | some bid => detach bid (modBuf bid (fun u => { u with state := .outgoing }) s)
    | none => s
  let s := modBuf new (fun u => { u with state := .active }) s
  let s := applyMapAtSwap new (decideThru new s)
  let s := if edits then noteFlight noteEditsDiscarded s else s
  let s := if modelMissing s.tne (buf s new).chain then noteFlight noteModelMissing s else s
  withRcu (fun u => { u with swapped := true }) s

/-- The new buffer's fade gain starts from 0 (R145). -/
def riseNew (len : Nat) (s : State) : State := modChain s.rcu.build (fun c => { c with fade := (Ramp.at 0).restart unity len }) s

/-- The swap of a normal crossfade (R145). -/
def crossfadeSwap (s : State) : State :=
  let f := fadeSamples (fadeLength s)
  let s := riseNew f (swapBuffers detachAll s)
  match outgoingBuf s with
  | some bid => modChain bid (fun c => { c with fade := c.fade.restart 0 f }) s
  | none => s

/-- The OUTGOING buffer, if one remains, enters EMPTY. -/
def dropOutgoing (s : State) : State :=
  match outgoingBuf s with
  | some bid => emptyBuffer bid s
  | none => s

/-- The midpoint of a dip (R146). -/
def dipMidpoint (s : State) : State :=
  let h := halfSamples (fadeLength s)
  let cost := bufCost s (some s.rcu.build)
  riseNew h (dropOutgoing (swapBuffers (detachWithin cost) s))

/-- The end of the fade (R147). -/
def endFade (s : State) : State := complete (dropOutgoing (applyJoined s))

/-! ## What is due at a block boundary -/

/-- A block boundary stands: the clock is RUNNING and no sample of the block has been processed (R35). -/
def atBoundary (s : State) : Bool := decide (s.aup.clock = .running ∧ s.tne.blockPos = 0)

/-- The fade starts at this boundary (R138 to R140). -/
def fadeStartDue (s : State) : Bool := atBoundary s && s.rcu.fadeDue && s.rcu.flight.isSome

/-- The swap falls at this boundary (R144, R145). -/
def swapDue (s : State) : Bool :=
  atBoundary s && decide (s.rcu.state = .fading) && !s.rcu.swapped && !s.rcu.dip && !s.tne.release

/-- Does the leaving buffer's fade gain stand at 0? With no leaving buffer there is nothing to wait for. -/
def leavingSilent (s : State) : Bool :=
  match activeBuf s with
  | some bid => decide ((buf s bid).chain.fade.v = 0 ∧ (buf s bid).chain.fade.count = 0)
  | none => true

/-- The midpoint of a dip falls at this boundary (R146). -/
def midpointDue (s : State) : Bool :=
  atBoundary s && decide (s.rcu.state = .fading) && !s.rcu.swapped && s.rcu.dip && !s.tne.release && leavingSilent s

/-- The fade ends at this boundary (R145, R146). -/
def fadeEndDue (s : State) : Bool :=
  atBoundary s && decide (s.rcu.state = .fading) && s.rcu.swapped && decide ((buf s s.rcu.build).chain.fade.count = 0)

/-- The first item waiting for the boundary (R135, R136). -/
def firstWaiting (s : State) : Option BoundaryItem := if atBoundary s then s.rcu.waiting.head? else none

/-- The first item leaves the waiting list. -/
def dropWaiting (s : State) : State := withRcu (fun u => { u with waiting := u.waiting.tail }) s

/-! ## Clock recovery and RESTART (R150, R151) -/

/-- The fade of a recall in FADING is settled at the clock-running notice, before the work is completed (R150). A
SCENE joined after the swap that waits for its block boundary is applied first (DESIGN CHOICE, log 73). -/
def settleFade (s : State) : State :=
  if s.rcu.state = .fading then
    let s := if s.rcu.swapped then dropOutgoing (applyJoined s) else dropOutgoing (swapBuffers (fun _ s => s) s)
    modChain s.rcu.build (fun c => { c with fade := Ramp.at unity }) s
  else s

/-- A waiting item is answered SUPERSEDED where it came from a link (R151). -/
def discardItem (i : BoundaryItem) (s : State) : State :=
  match i with
  | .scene _ _ dest => answerCode dest .superseded s
  | .sceneOnly r => answerJoined r.joined .superseded (answerCode r.dest .superseded s)

/-- A recall is answered SUPERSEDED at RESTART, where it came from a link; no outcome notice is given (R151). -/
def discardRecall (o : Option Recall) (s : State) : State :=
  match o with
  | some r => answerJoined r.joined .superseded (answerCode r.dest .superseded s)
  | none => s

/-- The Recall Unit and the chain buffers at RESTART, but for the boot recall (R151). What waits for a block boundary is answered after
the recalls (DESIGN CHOICE, log 31). -/
def restartRecalls (s : State) : State :=
  let s := discardRecall s.rcu.pending (discardRecall s.rcu.flight s)
  let s := s.rcu.waiting.foldl (fun s i => discardItem i s) s
  let s := emptyBuffer .b (emptyBuffer .a (withdrawRelease (withdrawList s)))
  withRcu (fun u => { u with
    ident := {}, state := .idle, flight := none, pending := none, bootDue := true, waiting := [], fadeDue := false
    swapped := false, dip := false, joinedDue := false }) s

end Sys2Proof.Machine
end

