-- ==== Sys2Proof/Machine/Switches.lean ====
section
/-! DEFINITION. The Switch Controller: firing triggers and carrying out actions, presses and releases, MIDI messages
(chapter 7). -/

namespace Sys2Proof.Machine

/-- Set the Switch Controller. -/
def withSwc (f : Swc → Swc) (s : State) : State := { s with swc := f s.swc }

/-- A binding record. -/
def bindingAt (s : State) (i : Nat) : Binding := Mem.get {} s.swc.bindings i

/-- A FLIP pointer and in-flight list. -/
def flipAt (s : State) (i : Nat) : Flip := Mem.get {} s.swc.flips i

/-- A held-switch entry. -/
def switchAt (s : State) (k : Nat) : SwitchEntry := Mem.get {} s.swc.switches k

/-- Change a held-switch entry. -/
def modSwitch (k : Nat) (f : SwitchEntry → SwitchEntry) (s : State) : State :=
  withSwc (fun w => { w with switches := Mem.modify {} w.switches k f }) s

/-! ## Actions (R125 to R131) -/

/-- The bank after a BANK action (R131). -/
def BankOp.apply (op : BankOp) (bank : Nat) : Nat :=
  match op with
  | .up => if bank = 31 then 0 else bank + 1
  | .down => if bank = 0 then 31 else bank - 1
  | .set n => n

/-- A recall the Switch Controller hands over takes the preset's own quantize and fade (R125). -/
def handRecall (preset scene : Nat) (o : Origin) (s : State) : State :=
  takeRecall { preset := preset, scene := scene, origin := o } s

/-- A pop of the return stack (R130); an entry of preset NONE fails at once (R134). The origin of what a switch release pops
is the switch's number (DESIGN CHOICE, log 63). -/
def popStack (by_ : PopBy) (s : State) : State :=
  match s.swc.stack with
  | [] => post (.stackEmpty by_) s
  | (p, scene) :: rest =>
    let s := withSwc (fun w => { w with stack := rest }) s
    match p with
    | some preset => handRecall preset scene (.ret by_) s
    | none => post (.recallFailed none scene .notFound (.ret by_)) (outcomeNotice (.ret by_) (.failed .notFound) s)

/-- A FLIP action (R128). -/
def fireFlip (index p0 s0 p1 s1 : Nat) (s : State) : State :=
  let f := flipAt s index
  let n := s.swc.nextFiring
  let s := withSwc (fun w => { w with
    flips := Mem.set {} w.flips index { f with inFlight := f.inFlight ++ [n] }
    nextFiring := n + 1 }) s
  if f.pointer then handRecall p1 s1 (.flip index n) s else handRecall p0 s0 (.flip index n) s

/-- A MOMENTARY action; `counts` is the switch whose press it counts on (R129), without a bound (DESIGN CHOICE,
log 56). -/
def fireMomentary (index preset scene : Nat) (counts : Option Nat) (s : State) : State :=
  if 4 ≤ s.swc.stack.length then post (.stackFull index) s
  else
    let s := withSwc (fun w => { w with stack := (s.rcu.ident.preset, s.rcu.ident.scene) :: w.stack }) s
    let s := match counts with
      | some k => modSwitch k (fun e => { e with momentary := e.momentary + 1 }) s
      | none => s
    handRecall preset scene (.momentary index) s

/-- A SLOT_TOGGLE action (R53). -/
def fireToggle (index : Nat) (kind : Kind) (occ : Nat) (s : State) : State :=
  match editBuf s with
  | none => post (.bindingFailed index .noTarget) s
  | some bid =>
    match nthOfKind kind occ 0 (buf s bid).chain.slots with
    | none => post (.bindingFailed index .noTarget) s
    | some i => modSlot bid i (fun sl => setBypass (bypassAsked .toggle sl) sl) s

/-- Carry out the action of binding `index` (R125). -/
def carryOut (index : Nat) (a : Action) (counts : Option Nat) (s : State) : State :=
  match a with
  | .none => s
  | .recall preset scene => handRecall preset scene (.binding index) s
  | .recallBank slot scene => handRecall (8 * s.swc.bank + slot) scene (.binding index) s
  | .scene scene => takeScene scene (.binding index) none s
  | .flip p0 s0 p1 s1 => fireFlip index p0 s0 p1 s1 s
  | .momentary preset scene => fireMomentary index preset scene counts s
  | .ret => popStack (.binding index) s
  | .slotToggle kind occ => fireToggle index kind occ s
  | .bank op => withSwc (fun w => { w with bank := op.apply w.bank }) s
  | .tap => (takeTap s).1
  | .tune op => changeTune (fun m => { m with on := op.apply m.on }) s
  | .flag op mask => withSwc (fun w => { w with flags := op.apply mask w.flags }) s
  | .bypass op => manualBypass op s

/-- What BINDING_FIRED carries beside index, trigger and action kind (R124). -/
def firedExtra (s : State) (index : Nat) (a : Action) : FiredExtra :=
  match a with
  | .bank op => .bank (op.apply s.swc.bank)
  | .flag op mask => .flags (op.apply mask s.swc.flags)
  | .flip .. => .pointer (flipAt s index).pointer
  | _ => .none

/-- A record fires: BINDING_FIRED where its report flag is set, then its action (R124). -/
def fireRecord (index : Nat) (r : Binding) (counts : Option Nat) (s : State) : State :=
  let s := if r.report then post (.bindingFired index r.trigger r.action.code (firedExtra s index r.action)) s else s
  carryOut index r.action counts s

/-- Does a condition hold in a copy of the flags (R124)? -/
def condHolds (flags : Byte) (c : Option (Nat × Bool)) : Bool :=
  match c with
  | none => true
  | some (k, v) => flags.getLsbD k == v

/-- Fire the records that match, in index order, against a copy of the flags (R124). -/
def fire (hits : Trigger → Bool) (counts : Option Nat) (s : State) : State :=
  let flags := s.swc.flags
  forAll (List.range 64) (fun i s =>
    let r := bindingAt s i
    if hits r.trigger && condHolds flags r.cond then fireRecord i r counts s else s) s

/-- Does a trigger name a switch and gesture? -/
def namesSwitch (k : Nat) (g : Gesture) (t : Trigger) : Bool :=
  match t with
  | .foot j h => decide (j = k ∧ h = g)
  | .panel j h => decide (j = k ∧ h = g)
  | _ => false

/-! ## Presses and releases (R115 to R118) -/

/-- Has some binding switch `k` with gesture HOLD (R115)? -/
def hasHold (s : State) (k : Nat) : Bool :=
  (List.range 64).any (fun i => namesSwitch k .hold (bindingAt s i).trigger)

/-- The entry of a switch that goes DOWN (R115). -/
def pressedEntry (ms : Nat) (deferred : Bool) : SwitchEntry :=
  { down := true, pressedAt := some ms, deferred := deferred, timer := if deferred then .running else .idle }

/-- A press of switch `k` (R115). -/
def press (k : Nat) (s : State) : State :=
  let d := hasHold s k
  let s := modSwitch k (fun _ => pressedEntry (s.timebase / 1000) d) s
  if d then s else fire (namesSwitch k .press) (some k) s

/-- The hold timer of switch `k` expires (R116). -/
def holdExpires (k : Nat) (s : State) : State :=
  fire (namesSwitch k .hold) (some k) (modSwitch k (fun e => { e with timer := .expired }) s)

/-- Pops of the return stack for the release of switch `k`, one after another (R117). -/
def momentaryReturns (k : Nat) : Nat → State → State
  | 0, s => s
  | n + 1, s => momentaryReturns k n (popStack (.switch k) s)

/-- A release of switch `k`; a synthetic one drops a deferred PRESS (R117, R118). No press time is kept (DESIGN CHOICE,
log 55). -/
def release (synthetic : Bool) (k : Nat) (s : State) : State :=
  let e := switchAt s k
  let short := decide (e.timer = .running)
  let s := if short then modSwitch k (fun e => { e with timer := .idle }) s else s
  let s := if short && !synthetic then fire (namesSwitch k .press) none s else s
  let s := fire (namesSwitch k .release) none s
  modSwitch k (fun _ => {}) (momentaryReturns k e.momentary s)

/-- The synthetic releases of the foot switches that are DOWN, in ascending number (R118). -/
def syntheticReleases (s : State) : State :=
  ((List.range 16).filter (fun k => (switchAt s k).down)).foldl (fun s k => release true k s) s

/-! ## MIDI (R120 to R122) -/

/-- Is a channel 1..16 received (R120)? -/
def receives (s : State) (ch : Nat) : Bool :=
  match s.swc.channel with
  | none => true
  | some c => decide (c = ch)

/-- A source value is set and its map entries are applied (R56). -/
def setSource (key v : Nat) (s : State) : State :=
  applySource key (withTne (fun t => { t with sources := Mem.set none t.sources key (some v) }) s)

/-- A control change on a received channel (R121). -/
def takeControl (c v : Nat) (s : State) : State :=
  if 119 < c then s
  else
    let s := if c = 0 ∧ v ≤ 1 then withSwc (fun w => { w with bankSelect := v }) s else s
    let prev := Mem.get 0 s.swc.ccPrev c
    let s := fire (fun t => match t with
      | .midiCc n th => decide (n = c ∧ prev < th ∧ th ≤ v)
      | _ => false) none s
    let s := setSource c (v * 1023 / 127) s
    withSwc (fun w => { w with ccPrev := Mem.set 0 w.ccPrev c v }) s

/-- Does some record have trigger MIDI_PC n? -/
def hasProgram (s : State) (n : Nat) : Bool := (List.range 64).any (fun i => (bindingAt s i).trigger == .midiPc n)

/-- A program change on a received channel (R122). -/
def takeProgram (n : Nat) (s : State) : State :=
  if hasProgram s n then fire (fun t => t == .midiPc n) none s
  else if s.swc.directMap then handRecall (s.swc.bankSelect * 128 + n) 0 .directMap s
  else s

/-- The number of data bytes of a message, by its status byte (R120). -/
def messageLen (status : Nat) : Nat := if 192 ≤ status ∧ status < 224 then 1 else 2

/-- A completed message is used (R120). -/
def takeMessage (status : Nat) (data : List Byte) (s : State) : State :=
  if !receives s (status % 16 + 1) then s
  else if 176 ≤ status ∧ status < 192 then takeControl (rd data 0) (rd data 1) s
  else if 192 ≤ status ∧ status < 208 then takeProgram (rd data 0) s
  else s

/-- A data byte (R120). -/
def takeData (d : Byte) (s : State) : State :=
  if s.swc.discard then s
  else
    match s.swc.running with
    | none => s
    | some st =>
      let g := s.swc.gathered ++ [d]
      if g.length < messageLen st.toNat then withSwc (fun w => { w with gathered := g }) s
      else takeMessage st.toNat g (withSwc (fun w => { w with gathered := [] }) s)

/-- A due measurement of the follower is judged before the next clock byte is taken. -/
def takeClockByte (s : State) : State := takeClock (if measureDue s then judgeMeasure s else s)

/-- A byte of the MIDI line is taken by its value (R120). -/
def takeMidi (d : Byte) (s : State) : State :=
  let v := d.toNat
  if v = 248 then takeClockByte s
  else if 248 < v then s
  else if 240 ≤ v then withSwc (fun w => { w with running := none, gathered := [], discard := true }) s
  else if 128 ≤ v then withSwc (fun w => { w with running := some d, gathered := [], discard := false }) s
  else takeData d s

/-- The state of the receive line after a whole message of a status byte: it is the running status, nothing is gathered. -/
def afterMessage (status : Nat) (s : State) : State :=
  withSwc (fun w => { w with running := some (b8 status), gathered := [], discard := false }) s

end Sys2Proof.Machine
end

