-- ==== Sys2Proof/Machine/Links.lean ====
section
/-! DEFINITION. The Link Controller: acceptance of a frame, edit ownership, foot permission, foot link state, counters and
the transmitter (chapter 11; the receivers are in `Frames.lean`). -/

namespace Sys2Proof.Machine

/-- Set the Link Controller. -/
def withLkc (f : Lkc → Lkc) (s : State) : State := { s with lkc := f s.lkc }

/-! ## Ownership and permission (R191, R192) -/

/-- Does a change of owner for this cause take ownership from the foot link? A RELEASE gives it up (DEDUCED, log 10). -/
def OwnerCause.takes : OwnerCause → Bool
  | .displaced => true
  | .linkDown => true
  | .permitOff => true
  | _ => false

/-- The owner changes, and OWNER is posted: on the main link by its subscription, on the foot link when ownership was taken
from it. -/
def setOwnerTo (o : EditOwner) (c : OwnerCause) (s : State) : State :=
  let s := postIf .main (.owner o c) (withLkc (fun k => { k with owner := o }) s)
  if c.takes then postOn .foot (.owner o c) s else s

/-- A FOOT owner becomes NONE. -/
def dropFootOwner (c : OwnerCause) (s : State) : State := if s.lkc.owner = .foot then setOwnerTo .none c s else s

/-- The foot permission is set (R192). -/
def setPermit (on : Bool) (s : State) : State :=
  let s := withLkc (fun k => { k with footPermit := on }) s
  if on then s else dropFootOwner .permitOff s

/-- The owner a link is. -/
def ownerOf : Link → EditOwner
  | .main => .main
  | .foot => .foot

/-! ## The foot link state (R193) -/

/-- A valid frame from the foot link moves its state. -/
def footFrame (s : State) : State :=
  if s.lkc.footUp then withLkc (fun k => { k with footTimer := true }) s
  else if s.lkc.footTimer then
    if 2 ≤ s.lkc.footRun then postIf .main (.linkState true) (withLkc (fun k => { k with footRun := 3, footUp := true }) s)
    else withLkc (fun k => { k with footRun := k.footRun + 1 }) s
  else withLkc (fun k => { k with footRun := 1, footTimer := true }) s

/-- The foot silence timer expires. -/
def footExpires (s : State) : State :=
  let up := s.lkc.footUp
  let s := withLkc (fun k => { k with footUp := false, footRun := 0, footTimer := false }) s
  if up then syntheticReleases (dropFootOwner .linkDown (postIf .main (.linkState false) s)) else s

/-! ## Acceptance (R189) -/

/-- The classes of request kinds (R189). -/
inductive ReqClass where
  | play | edit | store | read | control
deriving DecidableEq, Repr

/-- Do steps 5 and 6 check the class? -/
def ReqClass.checked : ReqClass → Bool
  | .edit => true
  | .store => true
  | _ => false

/-- What acceptance needs to know of a request kind: class, main only, and the length form. -/
structure Form where
  cls : ReqClass
  mainOnly : Bool := false
  fits : List Byte → Bool

/-- A kind of fixed length. -/
def fixed (n : Nat) (p : List Byte) : Bool := decide (p.length = n)

/-- The code with which steps 3 to 6 refuse a frame, or none. -/
def Form.refuse (form : Form) (f : Frame) (s : State) : Option Code :=
  if !form.fits f.payload then some .badLength
  else if form.mainOnly && decide (f.link = .foot) then some .notPermitted
  else if form.cls.checked && decide (f.link = .foot) && !s.lkc.footPermit then some .notPermitted
  else if form.cls.checked && decide (s.lkc.owner ≠ .none) && decide (s.lkc.owner ≠ ownerOf f.link) then some .notOwner
  else none

/-- The receiver of the link returns to HUNT, and a frame from the foot link moves the link's state before its acceptance
(R188, R193). -/
def frameIn (l : Link) (s : State) : State :=
  match l with
  | .main => withLkc (fun k => { k with rxMain := .hunt }) s
  | .foot => footFrame (withLkc (fun k => { k with rxFoot := .hunt }) s)

/-- Add a reply queue entry; the answer is where the reply goes. -/
def addEntry (f : Frame) (s : State) : Dest × State :=
  let id := (io s f.link).nextId
  (⟨f.link, id⟩, modIo f.link (fun q => { q with
    entries := q.entries ++ [{ id := id, tag := f.tag }]
    nextId := q.nextId + 1 }) s)

/-- A valid frame gets an entry and goes on, or is an overrun (R189 step 1). -/
def enter (f : Frame) (go : Dest → State → State) (s : State) : State :=
  let s := frameIn f.link s
  if 16 ≤ (io s f.link).entries.length then countEvent (ctrFrame f.link) s
  else
    let x := addEntry f s
    go x.1 x.2

/-- A valid frame of a request kind is accepted, and its body run where no step refuses it (R189). -/
def accept (form : Form) (body : Frame → Dest → State → State) (f : Frame) (s : State) : State :=
  enter f (fun d s =>
    match form.refuse f s with
    | some code => answerCode (some d) code s
    | none => body f d s) s

/-- Answer OK, no notes. -/
def answerOk (d : Dest) (data : ReplyData) (s : State) : State := answer (some d) .ok 0 data s

/-- Answer BAD_FIELD. -/
def badField (d : Dest) (s : State) : State := answerCode (some d) .badField s

/-! ## The transmitter (R190, R199) -/

/-- The frame being sent has ended: a two-frame reply goes on with its second frame; a reply leaves the queue with its last
byte, and that of a RESTART lets it take effect; then the next frame is chosen. -/
def frameDone (l : Link) (s : State) : State :=
  match (io s l).tx with
  | none => s
  | some (.reply id true) => modIo l (fun q => { q with tx := some (.reply id false) }) s
  | some (.report _) => modIo l (fun q => LinkIo.start { q with tx := none }) s
  | some (.reply id false) =>
    let restart := (io s l).entries.any (fun e => decide (e.id = id) && e.restart)
    let s := modIo l (fun q => LinkIo.start { q with tx := none, entries := q.entries.filter (fun e => e.id ≠ id) }) s
    if restart then withLkc (fun k => { k with restartDue := k.restartDue + 1 }) s else s

/-! ## Counters (R195) -/

/-- The 22 values of a counter set. -/
def counterValues (m : Mem Nat) : List Nat := Mem.getMany 0 m 0 22

end Sys2Proof.Machine
end

