-- ==== Sys2Proof/Machine/Scan.lean ====
section
/-! DEFINITION. The start-up scan: the walk of the sectors, the directory, and the settings it gives the blocks (R173 to
R175). -/

namespace Sys2Proof.Machine

/-! ## The walk of a sector (R173) -/

/-- A record whose marker the scan programs to SUPERSEDED, or a candidate for the directory. -/
structure Found where
  key : Nat
  at_ : DirEntry
deriving DecidableEq, Repr

/-- What the walk of a sector gives: where it ended, how, the dead bytes and dead records met, candidates, the records to
be marked, and the highest generation seen. -/
structure Walk where
  stop : Nat := 0
  bad : Bool := false
  dead : Nat := 0
  deadRecords : Nat := 0
  found : List Found := []
  mends : List DirEntry := []
  highest : Nat := 0
deriving DecidableEq, Repr

/-- The directory key a header's kind and number give, if they are in range. -/
def keyOf (kind number : Nat) : Option Nat :=
  if kind = 1 then some number
  else if kind = 2 ∧ number = 0 then some keyGlobals
  else if kind = 3 ∧ number = 0 then some keyBindings
  else none

/-- Is a total length one that a record can have, inside its sector? -/
def lengthOk (off len : Nat) : Bool := decide (32 ≤ len ∧ len ≤ 1024 ∧ len % 4 = 0 ∧ off + len ≤ 4096)

/-- Is a generation one that a record can carry? -/
def genOk (gen : Nat) : Bool := decide (1 ≤ gen ∧ gen ≤ 16777214)

/-- A header of valid length counts toward the highest generation seen, whatever its marker. -/
def Walk.seen (w : Walk) (gen : Nat) : Walk := { w with highest := if genOk gen then max w.highest gen else w.highest }

/-- Take one header into the walk. -/
def Walk.record (w : Walk) (k off : Nat) (h : List Byte) : Walk :=
  let len := rd16 h 6
  let gen := rd24 h 3
  let w := { w.seen gen with stop := off + len }
  let d : DirEntry := ⟨k, off, gen, len⟩
  if rd h 0 = 0xFC then
    match keyOf (rd h 1) (rd h 2) with
    | some key =>
      if genOk gen then { w with found := w.found ++ [⟨key, d⟩] }
      else { w with dead := w.dead + len, deadRecords := w.deadRecords + 1, mends := w.mends ++ [d] }
    | none => { w with dead := w.dead + len, deadRecords := w.deadRecords + 1, mends := w.mends ++ [d] }
  else { w with dead := w.dead + len, deadRecords := w.deadRecords + 1 }

/-- The walk of a sector, record by record; a sector holds at most 128. -/
def walkFrom (flash : Mem Byte) (k : Nat) : Nat → Walk → Walk
  | 0, w => w
  | n + 1, w =>
    if 4096 ≤ w.stop then w
    else
      let h := flashBytes flash (flashAddr k w.stop) 8
      if rd h 0 = 0xFF then (if lengthOk w.stop (rd16 h 6) then w.seen (rd24 h 3) else w)
      else if 4096 < w.stop + 16 ∨ lengthOk w.stop (rd16 h 6) = false then { w with bad := true }
      else walkFrom flash k n (w.record k w.stop h)

/-- The sector's entry after its walk, with whether it was ended by a bad length or a failed erased-space test; `opened` here
means a candidate for OPEN. -/
def walkEntry (flash : Mem Byte) (k : Nat) (w : Walk) : Sector × Bool :=
  let full : Sector := { state := .full, dead := w.dead + (4096 - w.stop), next := 4096 }
  if w.bad then (full, true)
  else if 4096 ≤ w.stop then (full, false)
  else if Mem.listed flash (flashAddr k w.stop) (4096 - w.stop) then (full, true)
  else if w.stop = 0 then ({}, false)
  else ({ state := .opened, dead := w.dead, next := w.stop }, false)

/-! ## The directory and the OPEN sector (R174) -/

/-- Put a candidate into the directory: of two of one key the higher generation stays, and of two
of equal generation the one walked first (DESIGN CHOICE, log 74). The answer lists the one that loses. -/
def putFound (dir : Mem (Option DirEntry)) (f : Found) : Mem (Option DirEntry) × List DirEntry :=
  match Mem.get none dir f.key with
  | none => (Mem.set none dir f.key (some f.at_), [])
  | some d => if d.gen < f.at_.gen then (Mem.set none dir f.key (some f.at_), [d]) else (dir, [f.at_])

/-- Resolve the candidates: the directory, and the duplicates that lose. -/
def resolve : List Found → Mem (Option DirEntry) → Mem (Option DirEntry) × List DirEntry
  | [], dir => (dir, [])
  | f :: rest, dir =>
    let x := putFound dir f
    let y := resolve rest x.1
    (y.1, x.2 ++ y.2)

/-- The candidate for OPEN whose records hold the highest generation, the lowest-numbered among equals (DESIGN
CHOICE, log 74). -/
def pickOpen (highest : List Nat) (p : Pst) : Option Nat :=
  let c := p.sectors.filter (fun e => e.2.state == .opened)
  (c.find? (fun e => c.all (fun f => highest.getD f.1 0 ≤ highest.getD e.1 0))).map (·.1)

/-- The FULL sector with the most dead bytes that holds no live record, the lowest-numbered among equals. -/
def pickErase (p : Pst) : Option Nat :=
  let c := p.sectors.filter (fun e => decide (e.2.state = .full ∧ e.2.live = 0))
  (c.find? (fun e => c.all (fun f => f.2.dead ≤ e.2.dead))).map (·.1)

/-- Choose the OPEN sector (R174). -/
def chooseOpen (highest : List Nat) (p : Pst) : Pst :=
  match pickOpen highest p with
  | some k => { p with sectors := p.sectors.map (fun e => if e.2.state = .opened ∧ e.1 ≠ k then (e.1, makeFull e.2) else e) }
  | none =>
    match lowestErased p with
    | some k => modSector k (fun e => { e with state := .opened }) p
    | none =>
      match pickErase p with
      | some k =>
        let e : Sector := { state := .opened }
        { p with flash := flashErase p.flash k, sectors := Mem.set {} p.sectors k e }
      | none => p

/-- The scan programs the markers of a list to SUPERSEDED; `failed` says which of the steps fail (R168, R173, R174). -/
def markSuperseded : List DirEntry → List Bool → State → State
  | [], _, s => s
  | d :: rest, failed, s =>
    let addr := flashAddr d.sector d.off
    let n := s.free
    let s :=
      if failed.headD false then
        storeFault d.sector d.off (.supersede d)
          { withPst (fun p => { p with flash := flashSpoil n p.flash addr [0xF8] }) s with free := n + 1 }
      else withPst (fun p => { p with flash := flashProgram p.flash addr [0xF8] }) s
    markSuperseded rest failed.tail s

/-- Dead bytes and live bytes of the records resolved (R174). -/
def countBytes (dups : List DirEntry) (p : Pst) : Pst :=
  let p := dups.foldl (fun p d => modSector d.sector (fun e => { e with dead := e.dead + d.len }) p) p
  p.dir.foldl (fun p e => match e.2 with
    | some d => modSector d.sector (fun x => { x with live := x.live + d.len }) p
    | none => p) p

/-! ## The settings (R175) -/

/-- The settings of a GLOBALS record replace those of the blocks; a tune mode that is ON stays ON (DESIGN CHOICE, log 54). -/
def applyGlobals (g : Globals) (s : State) : State :=
  let s := forAll lanes (fun k => modInLane k (InLane.replace (g.ins.getD (k - 1) {}))) s
  let s := forAll lanes (fun k => modOutLane k (OutLane.replace s.aup.override k (g.outs.getD (k - 1) {}))) s
  let s := setWindow g.window (setReference g.ref s)
  let s := changeTune (fun m => { m with channel := g.channel, policy := g.policy, exitOnRecall := g.exitOnRecall }) s
  let s := setTempoSource g.midiSource (withTmp (fun t => { t with presetSets := g.presetSets }) s)
  let s := withSwc (fun w => { w with holdTime := g.holdTime, channel := g.midiChannel, directMap := g.directMap }) s
  let s := withTne (fun t => { t with ctrlMap := Mem.setMany none [] 0 g.ctrlMap }) s
  setPermit g.footPermit (withRcu (fun u => { u with bootPreset := g.boot }) s)

/-- GLOBALS is read and applied, with its lock; the answer is the number of fields mended. Without it a setting that was
edited during the scan stays as edited (R1, R85, R91, R93, R119; DESIGN CHOICE, log 60). -/
def scanGlobals (s : State) : State × Nat :=
  match entry s.pst keyGlobals with
  | none => (withPst (fun p => { p with lock := {}, settingsLock := false }) s, 0)
  | some d =>
    let g := parseGlobals (bodyOf s.pst d)
    (applyGlobals g.1 (withPst (fun p => { p with lock := g.1.lock, settingsLock := g.1.settingsLock }) s), g.2)

/-- BINDINGS is read and replaces the table; the answer is the number of records set to their power-on values. Without it a
record that was bound during the scan stays as bound (R123; DESIGN CHOICE, log 60). -/
def scanBindings (s : State) : State × Nat :=
  match entry s.pst keyBindings with
  | none => (s, 0)
  | some d =>
    let r := parseBindings (bodyOf s.pst d)
    (withSwc (fun w => { w with bindings := r.1, flips := [] }) s, r.2)

/-! ## The scan -/

/-- The walks of the 64 sectors. -/
def walks (flash : Mem Byte) : List Walk := (List.range 64).map (fun k => walkFrom flash k 128 {})

/-- The sector table before the candidates are resolved. -/
def scanSectors (flash : Mem Byte) (ws : List Walk) : Mem Sector :=
  Mem.setMany {} [] 0 (ws.mapIdx (fun k w => (walkEntry flash k w).1))

/-- The store is SCANNING and the scan completes: the directory and the sector table are resolved, the settings are given to
the blocks, SCANNING ends, SCAN_DONE is posted, and the boot recall starts (R173 to R175, R149). SCAN_DONE's dead records are
those that were dead at the walk; a duplicate superseded counts only among the duplicates (DESIGN CHOICE, log 79). The
markers of records mended at the walk are programmed first, in walk order (R173), then those of the duplicates, in the order in
which they lose as the candidates are resolved in walk order (DESIGN CHOICE, log 86). -/
def scanDone (failed : List Bool) (s : State) : State :=
  let flash := s.pst.flash
  let ws := walks flash
  let r := resolve (ws.flatMap (·.found)) []
  let mends := ws.flatMap (·.mends)
  let top := (ws.map (·.highest)).foldl max 0
  let bad := (ws.mapIdx (fun k w => (walkEntry flash k w).2)).count true
  let s := markSuperseded (mends ++ r.2) failed s
  let s := withPst (fun p =>
    chooseOpen (ws.map (·.highest))
      (countBytes r.2 { p with sectors := scanSectors flash ws, dir := r.1, nextGen := top + 1 })) s
  let g := scanGlobals s
  let b := scanBindings g.1
  let s := changeConds (fun c => { c with scanning := false }) (withPst (fun p => { p with scanning := false }) b.1)
  let s := post (.scanDone {
    presets := (s.pst.dir.filter (fun e => e.1 < 256 && e.2.isSome)).length
    globals := (entry s.pst keyGlobals).isSome
    bindings := (entry s.pst keyBindings).isSome
    dead := (ws.map (·.deadRecords)).sum
    duplicates := r.2.length
    badSectors := bad
    fieldsMended := g.2 + b.2
    live := liveBytes s.pst
    erased := erasedCount s.pst
    nextGen := s.pst.nextGen }) s
  reclaimMoment (if s.rcu.bootDue then startBoot s else s)

end Sys2Proof.Machine
end

