-- ==== Sys2Proof/Machine/Audio.lean ====
section
/-! DEFINITION. One sample period, block boundaries and table changes, and the loss and return of the audio clock (R3 to
R5, R12 to R14, R20, R35, R44, R46, R59, R77, R150, R181). -/

namespace Sys2Proof.Machine

/-! ## Input lanes (R3, R14) -/

/-- The raw sample of an input lane (R3). -/
def rawSample (s : State) (k : Nat) (x : Int) : Int :=
  let l := inLane s k
  if l.loopback = 0 then x else (outLane s l.loopback).prev

/-- A silence detector takes a raw sample (R14); entering SILENT is the event of a count of 4,800. -/
def Silence.take (h : Nat) (x : Int) (d : Silence) : Silence :=
  if d.silent then (if 2 * h ≤ x.natAbs then { silent := false, count := 0 } else d)
  else if x.natAbs < h then { d with count := min 4800 (d.count + 1) }
  else { d with count := 0 }

/-- What the input path makes of a raw sample: the processed sample, and whether the lane has a clip event. -/
def inputPath (l : InLane) (relay : Option Int) (raw : Int) : Clipped :=
  let p := if l.inverted then invert raw else ⟨raw, false⟩
  let g := gainProduct p.y l.gain.v
  let y := match relay with | some r => (gainProduct g.y r).y | none => g.y
  ⟨y, decide (raw = sampleMin ∨ raw = sampleMax) || p.clip || g.clip⟩

/-- An input lane in one sample period: its ramp advances, its silence detector takes the raw sample; the change of the
detector, if it enters SIGNAL, follows R15. Where the sample also wraps the lane's clip counter, COUNTER_OVERFLOW is posted
before SILENCE (DESIGN CHOICE, log 82). The answer is the raw and the processed sample. -/
def inputLane (k : Nat) (x : Int) (s : State) : State × Int × Int :=
  let raw := rawSample s k x
  let old := (inLane s k).silence
  let s := modInLane k (fun l => { l with gain := l.gain.advance, silence := l.silence.take l.cfg.threshold raw }) s
  let p := inputPath (inLane s k) (if k = 1 then some s.aup.relayMute.v else none) raw
  let s := countIf p.clip (ctrInput k) s
  (if old.silent && !(inLane s k).silence.silent then silenceChanged k false s else s, raw, p.y)

/-- The input lanes in ascending order (log 82), with their raw and processed samples. -/
def inputLanes : List Nat → List Sample24 → State → State × List (Int × Int)
  | [], _, s => (s, [])
  | k :: ks, xs, s =>
    let a := inputLane k (xs.headD 0).toInt s
    let r := inputLanes ks xs.tail a.1
    (r.1, a.2 :: r.2)

/-! ## Output lanes (R4, R5) -/

/-- What the effective sources offer in a sample period. -/
structure Offer where
  bus : Int
  busClip : Bool
  send : Int
  dry : Int
  tone : Int

/-- The sample a source gives a lane, and whether the bus sum's saturation belongs to the lane (R4, R19). -/
def Offer.pick (o : Offer) (k : Nat) (src : Source) : Clipped :=
  match src with
  | .engine => if k = 5 then ⟨o.send, false⟩ else ⟨o.bus, o.busClip⟩
  | .dry => ⟨o.dry, false⟩
  | .tone => ⟨o.tone, false⟩
  | .zero => ⟨0, false⟩

/-- The output path of a lane (R5). -/
def outputPath (l : OutLane) (x : Clipped) : Clipped :=
  let p := if l.inverted then invert x.y else ⟨x.y, false⟩
  let g := gainProduct p.y l.gain.v
  ⟨g.y, x.clip || p.clip || g.clip⟩

/-- An output lane in one sample period. -/
def outputLane (o : Offer) (k : Nat) (s : State) : State :=
  let s := modOutLane k (fun l => { l with gain := l.gain.advance }) s
  let f := outputPath (outLane s k) (o.pick k (outLane s k).source)
  countIf f.clip (ctrOutput k) (modOutLane k (fun l => { l with prev := f.y }) s)

/-- The DRY sample (R4). -/
def drySample (s : State) (l1 l2 : Int) : Int :=
  match activeBuf s with
  | none => l1
  | some bid => (buf s bid).chain.input.pick l1 l2

/-! ## The sample period -/

/-- The samples left of the table changes that have started go down. -/
def tablesSample (t : Tne) : Tne :=
  { t with
    curves := t.curves.map (fun e => (e.1, { e.2 with left := e.2.left.map (· - 1) }))
    filters := t.filters.map (fun e => (e.1, { e.2 with left := e.2.left.map (· - 1) })) }

/-- The position in the block after a sample; the 32nd leaves a boundary to be taken (R35). -/
def blockSample (t : Tne) : Tne :=
  if t.blockPos = 31 then { t with blockPos := 0, boundaryDue := true } else { t with blockPos := t.blockPos + 1 }

/-- One sample period: input lanes, tuner channels, chains, tails, the output bus and output lanes, the reference tone, the
sample numbers and counts (R3 to R5, R16, R23, R35, R79, R100, R108, R178). -/
def runSample (xs : List Sample24) (s : State) : State :=
  let s := withAup (fun a => { a with relayMute := a.relayMute.advance }) s
  let r := inputLanes lanes xs s
  let s := r.1
  let raw := fun i => (r.2.getD i (0, 0)).1
  let fine := fun i => (r.2.getD i (0, 0)).2
  let s := modChan .t1 (Channel.sample (raw 0) (chanSilent s .t1)) s
  let s := modChan .t2 (Channel.sample (raw 1) (chanSilent s .t2)) s
  let dry := drySample s (fine 0) (fine 1)
  let e := engineStep (fine 0) (fine 1) (fine 2) s
  let o : Offer := ⟨e.2.bus, e.2.busClip, e.2.send, dry, toneSample s.aup.tonePhase⟩
  let s := forAll lanes (outputLane o) e.1
  let s := withAup (fun a => { a with tonePhase := a.tonePhase + a.toneInc }) s
  let s := withAcd settleSample (withTmp tempoSample s)
  withTne (fun t => blockSample (tablesSample t)) s

/-! ## Block boundaries (R20, R44, R59) -/

/-- The load of the block that begins (R59). -/
def loadNow (s : State) : Nat :=
  bufCost s (activeBuf s) + (if s.rcu.state = .fading then bufCost s (outgoingBuf s) else 0) + tailsCost s.tne

/-- A change of the slots of the processed chains: the ACTIVE and the OUTGOING buffer (R35). -/
def modPlayed (f : Slot → Slot) (s : State) : State :=
  let g := fun (o : Option BufId) (s : State) => match o with | some bid => modSlots bid f s | none => s
  g (outgoingBuf s) (g (activeBuf s) s)

/-- Pending discrete changes of the processed chains start their dips, and so do those of the incoming buffer that edits reach
while it is still READY, whose ramps advance only once it is processed; the load is computed (R44, R59, R145). -/
def startDips (s : State) : State :=
  let s := modPlayed boundaryDip s
  let s := match editBuf s with
    | some bid => if editBuf s = activeBuf s then s else modSlots bid boundaryDip s
    | none => s
  let n := loadNow s
  withTne (fun t => { t with load := n }) s

/-- The block boundary: a scene joined after the swap is applied, dips start, the load is computed, and a block that clipped
counts once (R20, R44, R59, R142). -/
def boundary (s : State) : State :=
  let clip := s.tne.blockClip
  let s := countIf clip ctrChain (withTne (fun t => { t with boundaryDue := false, blockClip := false }) s)
  startDips (applyJoined s)

/-! ## Table changes (R46) -/

/-- Does a table have incoming contents that wait for a change boundary? -/
def incomingWaits (t : Tne) (r : TableRef) : Bool :=
  match r with
  | .curve i => (Mem.get {} t.curves i).incoming.isSome && (Mem.get {} t.curves i).left.isNone
  | .filterSet i => (Mem.get {} t.filters i).incoming.isSome && (Mem.get {} t.filters i).left.isNone

/-- Has a started table change reached its switch point? -/
def changeReached (t : Tne) (r : TableRef) : Bool :=
  match r with
  | .curve i => decide ((Mem.get {} t.curves i).left = some 0)
  | .filterSet i => decide ((Mem.get {} t.filters i).left = some 0)

/-- The incoming contents become current. -/
def Curve.turn (c : Curve) : Curve := { c with current := c.incoming.getD c.current, incoming := none, left := none }

/-- The incoming contents become current. -/
def FilterSet.turn (c : FilterSet) : FilterSet :=
  { c with current := c.incoming.getD c.current, incoming := none, left := none }

/-- The incoming contents of a table become current. -/
def turnTable (r : TableRef) (t : Tne) : Tne :=
  match r with
  | .curve i => { t with curves := Mem.modify {} t.curves i Curve.turn }
  | .filterSet i => { t with filters := Mem.modify {} t.filters i FilterSet.turn }

/-- A slot that names a table whose contents have just become current: its THRU state is decided anew (R37), and with a
filter set its histories are 0 (R27). -/
def retake (r : TableRef) (t : Tne) (m : Lma) (sl : Slot) : Slot :=
  if namesTable r sl && !sl.stub then
    { sl with
      thru := slotThru t m sl
      hist := match r with | .filterSet _ => [] | .curve _ => sl.hist }
  else sl

/-- A table's incoming contents become current, and every slot of a processed chain that names the table by then takes them
up: those found at the change boundary and those that came to name it since (R25, R27, R37, R46; DEDUCED, log 46). -/
def turnNow (r : TableRef) (s : State) : State :=
  let s := withTne (turnTable r) s
  modPlayed (retake r s.tne s.lma) s

/-- The change of a table starts: 64 samples are left of it. -/
def beginChange (r : TableRef) (t : Tne) : Tne :=
  match r with
  | .curve i => { t with curves := Mem.modify {} t.curves i (fun c => { c with left := some 64 }) }
  | .filterSet i => { t with filters := Mem.modify {} t.filters i (fun c => { c with left := some 64 }) }

/-- A slot found at the change boundary: its dip starts or restarts, and the change joins its list. -/
def tableDip (r : TableRef) (sl : Slot) : Slot :=
  if namesTable r sl && !sl.stub then { startDip sl with changes := sl.changes ++ [.table r] } else sl

/-- Does a slot of a processed chain name the table? -/
def tableInUse (r : TableRef) (s : State) : Bool :=
  let f := fun o : Option BufId => match o with
    | some bid => (buf s bid).chain.slots.any (fun sl => namesTable r sl && !sl.stub)
    | none => false
  f (activeBuf s) || f (outgoingBuf s)

/-- The change boundary of a table (R46). -/
def startTableChange (r : TableRef) (s : State) : State :=
  if tableInUse r s then withTne (beginChange r) (modPlayed (tableDip r) s)
  else withTne (turnTable r) s

/-- The table changes of a slot's pending list whose moment has come make their contents current. -/
def turnPending (changes : List SlotChange) (s : State) : State :=
  changes.foldl (fun s c => match c with
    | .table r => if changeReached s.tne r then turnNow r s else s
    | .param _ _ => s) s

/-- The switch point of a slot's dip (R44, R46). -/
def slotSwitch (bid : BufId) (i : Nat) (sl : Slot) (s : State) : State :=
  let s := turnPending sl.changes s
  modSlot bid i (fun sl =>
    { takeChanges s.tne s.lma s.tmp.beat sl with dip := sl.dip.restart unity 64, dipPhase := .up }) s

/-! ## Loss of the clock (R12) -/

/-- The clock monitor goes to a state, and CLOCK_STATE is posted (R11). R11 gives the settle count its value on entry to
SETTLING; on entry to RUNNING and to ABSENT it is set to 0 as well (DESIGN CHOICE, log 75). -/
def setClock (c : Clock) (reason : Option ClockReason) (s : State) : State :=
  post (.clockState c reason) (withAup (fun a => { a with clock := c, settle := 0 }) s)

/-- The clock monitor leaves RUNNING (R12): the detectors' counts and the kept output samples are 0, CLOCK enters the mute
set, the tap series and the follower's measurement end, and CLOCK_DOWN begins. An entry into SILENT that is due and has not
been taken is dropped with its count (DESIGN CHOICE, log 58). -/
def clockLost (reason : ClockReason) (s : State) : State :=
  let s := setClock .absent (some reason) s
  let s := allIn (fun l => { l with silence := { l.silence with count := 0 } }) s
  let s := allOut (fun l => { l with prev := 0 }) s
  let s := changeMute (fun m => { m with clock := true }) s
  changeConds (fun c => { c with clockDown := true }) (tempoClockLost s)

/-! ## Return of the clock (R13) -/

/-- A slot's dip in progress completes at once (R44). -/
def finishDip (t : Tne) (m : Lma) (beat : Nat) (sl : Slot) : Slot :=
  if sl.dipPhase = .none then sl
  else { takeChanges t m beat sl with dip := Ramp.at unity, dipPhase := .none }

/-- Every waiting incoming contents becomes current (R46). -/
def turnAll (t : Tne) : Tne :=
  { t with curves := t.curves.map (fun e => (e.1, e.2.turn)), filters := t.filters.map (fun e => (e.1, e.2.turn)) }

/-- A buffer at the clock-running notice: dips complete, histories are 0, THRU is decided again, every ramp stands at its
target (R13, R34, R44). -/
def recoverBuffer (bid : BufId) (s : State) : State :=
  let s := modSlots bid (finishDip s.tne s.lma s.tmp.beat) s
  let s := modSlots bid (fun sl => { sl.snap with hist := [] }) s
  decideThru bid (modChain bid (fun c => { c with fade := c.fade.snap }) s)

/-- The lanes and the relay-mute gain at the clock-running notice; a window in progress is finished and its completions are
given (R13, R181). -/
def recoverLanes (s : State) : State :=
  let s := allOut OutLane.finish (allIn InLane.finish s)
  let open_ := s.acd.window.isSome
  let s := withAup (fun a => { a with
    relayMute := if open_ then Ramp.at unity else a.relayMute.snap
    relayOwed := false }) s
  let r := finishWindow s
  relayCompletions r.2 r.1

/-- A head request that waits is granted or handled by R66, until the list is served (R77). -/
def reconsider : Nat → State → State
  | 0, s => s
  | n + 1, s => if grantDue s then reconsider n (serve s) else if clampDue s then reconsider n (serve (clampHead s)) else s

/-- The chains, tails and line memory at the clock-running notice, in R13's order: a recall in FADING completes, tails and
remnants are freed and held pages zeroed, then every ramp stands at its target; a list that waits is reconsidered (R13, R34,
R77, R150). -/
def recoverEngine (s : State) : State :=
  let fading := decide (s.rcu.state = .fading)
  let s := settleFade (recoverBuffer .b (recoverBuffer .a (withTne turnAll s)))
  let s := clearTails (if fading then complete s else s)
  let s := recoverBuffer .b (recoverBuffer .a s)
  let s := withTne (fun t => { t with blockPos := 0, boundaryDue := true }) s
  buildCheck (reconsider 12 s)

/-- The tuner channels and the beat timer at the clock-running notice (R84, R108). -/
def recoverCounts (s : State) : State :=
  let s := modChan .t1 (Channel.clockRunning (chanSilent s .t1)) s
  let s := modChan .t2 (Channel.clockRunning (chanSilent s .t2)) s
  withTmp (fun t => { t with beatCount := 0, beatDue := false }) s

/-- The clock monitor enters RUNNING (R13). -/
def clockRunning (s : State) : State :=
  let s := recoverLanes (setClock .running none s)
  let s := recoverCounts (recoverEngine s)
  changeConds (fun c => { c with clockDown := false }) (changeMute (fun m => { m with clock := false }) s)

/-- The clock-running notice is due (R11). -/
def clockDue (s : State) : Bool := decide (s.aup.clock = .settling ∧ 4800 ≤ s.aup.settle)

end Sys2Proof.Machine
end

