-- ==== Sys2Proof/Machine/Events.lean ====
section
/-! DEFINITION. The events the part gives itself: each takes effect when it is due, and otherwise leaves the state as it stands
(log 2); resets and RESTART; and the settling of what is due before a sample period. -/

namespace Sys2Proof.Machine

/-! ## Lanes -/

/-- The switch point of a lane's dip (R7). -/
def laneSwitch (dir : Dir) (k : Nat) (s : State) : State :=
  match dir with
  | .input => if (inLane s k).switchDue then modInLane k InLane.switchPoint s else s
  | .output => if (outLane s k).switchDue then modOutLane k OutLane.switchPoint s else s

/-- The end of a lane's dip (R7). -/
def laneDipEnd (dir : Dir) (k : Nat) (s : State) : State :=
  match dir with
  | .input => if (inLane s k).endDue then modInLane k (fun l => { l with dip := .none }) s else s
  | .output => if (outLane s k).endDue then modOutLane k (fun l => { l with dip := .none }) s else s

/-- The completion of the relay-mute gain, with the relay completions it leads to (R10, R178, R179). -/
def relayMuteDone (s : State) : State :=
  if relayMuteDue s then
    let r := muteCompletion (withAup (fun a => { a with relayOwed := false }) s)
    relayCompletions r.2 r.1
  else s

/-- A silence detector enters SILENT (R14, R15). -/
def silentEntry (k : Nat) (s : State) : State :=
  let d := (inLane s k).silence
  if d.silent = false ∧ 4800 ≤ d.count then
    silenceChanged k true (modInLane k (fun l => { l with silence := { silent := true, count := 0 } }) s)
  else s

/-! ## Blocks, slots and tables -/

/-- The block boundary (R20, R44, R59). -/
def blockBoundary (s : State) : State := if s.tne.boundaryDue && atBoundary s then boundary s else s

/-- The switch point of a slot's dip (R44). -/
def slotSwitchPoint (bid : BufId) (i : Nat) (s : State) : State :=
  match slotAt s bid i with
  | some sl => if sl.dipPhase = .down ∧ sl.dip.count = 0 then slotSwitch bid i sl s else s
  | none => s

/-- Change a slot when a condition on it holds. -/
def slotWhen (due : Slot → Bool) (f : Slot → Slot) (bid : BufId) (i : Nat) (s : State) : State :=
  match slotAt s bid i with
  | some sl => if due sl then modSlot bid i f s else s
  | none => s

/-- A slot's dip is over (R44). -/
def slotDipOver : BufId → Nat → State → State :=
  slotWhen (fun sl => decide (sl.dipPhase = .up ∧ sl.dip.count = 0)) (fun sl => { sl with dipPhase := .none })

/-- A table's change boundary, or the moment 64 samples after it, when its contents become current (R46). They do so then even
where the change boundary of another table has moved a slot's switch point on (DESIGN CHOICE, log 46). -/
def tableBoundary (r : TableRef) (s : State) : State :=
  if atBoundary s then
    if incomingWaits s.tne r then startTableChange r s
    else if changeReached s.tne r then turnNow r s
    else s
  else s

/-- A gate that closes: its gain falls over release × 48 samples (R39). -/
def closeGate (sl : Slot) : Slot :=
  { sl with
    gateOpen := false
    quiet := 0
    voice := { sl.voice with b := sl.voice.b.restart 0 ((sl.run.getD 1 0).toNat * 48) } }

/-- The gate of a slot closes (R39). -/
def gateCloses : BufId → Nat → State → State :=
  slotWhen (fun sl => decide (sl.kind = .gate) && sl.gateOpen && decide (480 ≤ sl.quiet)) closeGate

/-- The hold of a TRAILING slot runs out (R50). -/
def trailHoldOver : BufId → Nat → State → State :=
  slotWhen (fun sl => decide (sl.bypass = .trailing) && !sl.stub && decide (sl.hold = 0) && !sl.falling) trailExpire

/-- A trail ends: the slot is BYPASSED, with e 0, i 8192 and its gains at their mix values, a mix stored while it trailed
among them (R50). -/
def endTrail (sl : Slot) : Slot :=
  { sl with
    bypass := .bypassed
    falling := false
    mixStored := false
    engage := Ramp.at 0
    voice := { sl.voice with
      input := Ramp.at unity, dry := Ramp.at (dryGain (runMix sl)), wet := Ramp.at (wetGain (runMix sl)) } }

/-- The trail of a slot is over (R50). -/
def trailOver : BufId → Nat → State → State :=
  slotWhen (fun sl => decide (sl.bypass = .trailing) && !sl.stub && sl.falling && decide (sl.voice.wet.count = 0)) endTrail

/-- The bus-muted notice: a MUTING bypass relay drops (R58, R185). -/
def busMuted (s : State) : State :=
  if s.tne.busNotice ∧ s.tne.muteRamp.v = 0 ∧ s.tne.muteRamp.count = 0 then
    let s := withTne (fun t => { t with busNotice := false }) s
    if s.acd.relay = .muting then postBypass (setRelay .out s) else s
  else s

/-! ## Tails and line memory -/

/-- A tail whose hold has run out passes to DECAY (R73). -/
def tailHoldOver (index : Nat) (s : State) : State :=
  modTail index (fun tl =>
    if tl.phase = .ringing ∧ tl.expired then
      { tl with phase := .decay, expired := false, voice := { tl.voice with wet := tl.voice.wet.restart 0 2048 } }
    else tl) s

/-- The record of the tail set with an index. -/
def tailAt (s : State) (index : Nat) : Option Tail := s.tne.tails.find? (fun tl => tl.index == index)

/-- A tail's decay is over: the record is freed (R73). -/
def tailDecayOver (index : Nat) (s : State) : State :=
  match tailAt s index with
  | some tl => if tl.phase = .decay ∧ tl.voice.wet.count = 0 then freeTail tl s else s
  | none => s

/-- A remnant's fade is over: it is freed (R75). -/
def remnantOver (place : Nat) (s : State) : State :=
  match Mem.get none s.tne.remnants place with
  | some g => if g.voice.wet.count = 0 then freeRemnant place g s else s
  | none => s

/-- A short request is granted whole (R65). -/
def shortGranted (s : State) : State := if grantDue s then buildCheck (serve s) else s

/-- A short request is handled by R66. -/
def shortClamped (s : State) : State := if clampDue s then buildCheck (serve (clampHead s)) else s

/-- Every grant and every clamp that is due now, one after another (R65, R66). -/
def requestsTaken (s : State) : State := if grantDue s || clampDue s then buildCheck (reconsider 12 s) else s

/-- A budget release is complete (R76). -/
def releaseOver (s : State) : State := if releaseDue s then withTne (fun t => { t with release := false }) s else s

/-! ## Tuner -/

/-- A completed span goes to the lock machine; in tune mode the selected channel's is reported (R81, R82, R98). -/
def spanTaken (ch : ChanId) (s : State) : State :=
  match (chan s ch).span with
  | none => s
  | some span =>
    let r := spanResult s.tun.ref span
    let s := feedLock ch r (modChan ch (fun c => { c with span := none, timer := true }) s)
    if s.tun.mode.on ∧ selected s = ch then
      post (.tunerReading ch span r (chan s ch).lock.tag (chan s ch).display) s
    else s

/-- A timeout miss (R82). -/
def spanTimeout (ch : ChanId) (s : State) : State := if (chan s ch).timer then feedLock ch none s else s

/-- A HELD display record expires (R92). -/
def displayOver (ch : ChanId) (s : State) : State :=
  match (chan s ch).display with
  | .held _ _ => modChan ch (fun c => { c with display := .absent }) s
  | _ => s

/-! ## Tempo -/

/-- A completed measurement of the follower is judged (R105, R106). -/
def followerTaken (s : State) : State := if measureDue s then judgeMeasure s else s

/-- The no-clock timer expires (R106). -/
def noClockOver (s : State) : State :=
  if s.tmp.follower.timer ∧ s.tmp.follower.state ≠ .noClock then noClock s else s

/-- A beat by count, given only while the clock monitor is RUNNING and not while the clock gives the beats (R108, R109). -/
def beatTaken (s : State) : State :=
  if s.tmp.beatDue && !s.tmp.withheld && decide (s.aup.clock = .running) then
    giveBeat (withTmp (fun t => { t with beatCount := 0, beatDue := false }) s)
  else s

/-! ## Recall Unit -/

/-- The first item waiting for the boundary, if it is a SCENE request, is carried out (R136). -/
def sceneTaken (s : State) : State :=
  match firstWaiting s with
  | some (.scene scene o dest) => sceneNow scene o dest (dropWaiting s)
  | _ => s

/-- The first item waiting for the boundary, if it is a scene-only recall, is carried out (R135). -/
def sceneOnlyTaken (s : State) : State :=
  match firstWaiting s with
  | some (.sceneOnly r) => sceneOnlyNow r (dropWaiting s)
  | _ => s

/-- The fade start boundary (R144). -/
def fadeStarts (s : State) : State := if fadeStartDue s then startFade s else s

/-- The swap of a normal crossfade (R145). -/
def swapTaken (s : State) : State := if swapDue s then crossfadeSwap s else s

/-- The midpoint of a dip (R146). -/
def midpointTaken (s : State) : State := if midpointDue s then dipMidpoint s else s

/-- The end of the fade (R147). -/
def fadeEnds (s : State) : State := if fadeEndDue s then endFade s else s

/-! ## Preset Store -/

/-- The flash has fallen free: the arbiter goes on through the reads that wait, in arrival order (R153, R158). -/
def flashFree (s : State) : State := arbitrateReads (s.pst.reads.length + 1) s

/-- The head request begins (R160). -/
def requestBegins (s : State) : State := if beginDue s then requestBegin s else s

/-- A program step is over (R162, R168). -/
def programStep (matched : Bool) (s : State) : State :=
  match s.pst.op with
  | some (.program addr data) => flashFree (programDone addr data matched s)
  | _ => s

/-- A read is over: its record goes to who asked for it, before the reads that wait are served (R158). -/
def readDone (s : State) : State :=
  match s.pst.op with
  | some (.read reader d) =>
    let body := bodyOf s.pst d
    let s := withPst (fun p => { p with op := none }) s
    match reader with
    | .job => flashFree (lockRead body s)
    | .copy => flashFree (copyRead body s)
    | .link dest => flashFree (answer (some dest) .ok 0 (.bytes (bytes24 d.gen ++ bytes16 d.len ++ body)) s)
    | .recall n => flashFree (recordArrival n body d.gen s)
  | _ => s

/-- An erase is over (R171). -/
def eraseOver (s : State) : State :=
  match s.pst.op with
  | some (.erase k) => flashFree (eraseDone k s)
  | _ => s

/-- A reclaim copy starts, for the first live record of the victim (R170). -/
def reclaimCopies (s : State) : State :=
  match s.pst.reclaim with
  | some ⟨victim, none⟩ =>
    if reclaimFree s then
      match firstRecord (liveOf s.pst victim) with
      | some (key, d) => copyStart victim key d s
      | none => s
    else s
  | _ => s

/-- The erase of an emptied victim starts (R171). -/
def reclaimErases (s : State) : State :=
  match s.pst.reclaim with
  | some ⟨victim, none⟩ =>
    if reclaimFree s && (liveOf s.pst victim).isEmpty then withPst (fun p => { p with op := some (.erase victim) }) s else s
  | _ => s

/-! ## Accessory Driver and links -/

/-- The settle of a window is over (R178). -/
def windowSettled (s : State) : State := if settleDue s then settleDone s else s

/-! ## Resets (R151, R172 and the reset columns of every chapter) -/

/-- POR and PIN: every field at its reset value; flash keeps its bytes but for a torn operation, and the input pins and the
commands that wait stay. -/
def resetAll (s : State) : State :=
  let flash := tornFlash s.free s.pst
  { State.reset with
    pst := { State.reset.pst with flash := flash, lockKey := s.pst.lockKey }
    acd := { State.reset.acd with supply := s.acd.supply, stability := decide (s.acd.supply = .above) }
    free := s.free + 1
    pending := s.pending }

/-- The Link Controller at RESTART (R199). -/
def restartLinks (s : State) : State :=
  let f := fun q : LinkIo => { q with reports := [], drops := 0 }
  withLkc (fun k => { k with main := f k.main, foot := f k.foot, owner := .none, stageMain := none, stageFoot := none }) s

/-- The Tuner Unit at RESTART (R84, R93, R94). -/
def restartTuner (s : State) : State :=
  let s := withTun (fun t => { t with
    t1 := Channel.restarted (chanSilent s .t1)
    t2 := Channel.restarted (chanSilent s .t2) }) s
  changeTune (fun m => { m with on := false }) s

/-- The Tempo Unit at RESTART (R100, R103, R105, R108). -/
def restartTempo (s : State) : State :=
  alignTempo noReport (setF7 false (withTmp (fun t =>
    { ({} : Tmp) with midiSource := t.midiSource, presetSets := t.presetSets, tempo := t.tempo, beat := t.beat }) s))

/-- The Switch Controller at RESTART (R114, R120, R121, R123, R126, R129, R131). -/
def restartSwitches (s : State) : State :=
  withSwc (fun w => { w with
    flips := [], flags := 0, stack := [], bank := 0, switches := [], running := none, gathered := [], discard := false
    ccPrev := [], bankSelect := 0 }) s

/-- The output bus at RESTART: START is added and the ramp stands at 0 (R58). -/
def restartBus (s : State) : State :=
  withTne (fun t => { t with muteRamp := Ramp.at 0 }) (changeMute (fun m => { m with start := true }) s)

/-- The tails and line memory at RESTART (R61, R62, R69, R74). -/
def restartLines (s : State) : State :=
  withLma (fun m => { m with free := List.range 256, regions := [], requests := none })
    (withTne (fun t => { t with tails := [], remnants := [], release := false }) s)

/-- RESTART takes effect (R199): the Link Controller first, then every block, and the boot recall (R149). That the Tempo Unit's report comes
before the Accessory Driver's is the model's order (DESIGN CHOICE, log 31). -/
def restartNow (s : State) : State :=
  let s := restartSwitches (restartTempo (restartTuner (restartRecalls (restartLinks s))))
  let s := restartLines (restartBus s)
  let s := changeConds (fun c => { c with starting := true }) s
  if s.pst.scanning then s else startBoot s

/-- A RESTART whose reply has been sent takes effect (R199). -/
def restartTaken (s : State) : State :=
  if s.lkc.restartDue = 0 then s
  else restartNow (withLkc (fun k => { k with restartDue := k.restartDue - 1 }) s)

/-! ## Settling -/

/-- The slot numbers. -/
def slotNos : List Nat := List.range 12

/-- A slot event for every slot of both buffers. -/
def everySlot (f : BufId → Nat → State → State) (s : State) : State := forAll slotNos (f .b) (forAll slotNos (f .a) s)

/-- A table event for every table that has been loaded or cleared. -/
def everyTable (s : State) : State :=
  let s := forAll (s.tne.curves.map (·.1)) (fun i => tableBoundary (.curve i)) s
  forAll (s.tne.filters.map (·.1)) (fun i => tableBoundary (.filterSet i)) s

/-- Take every waiting item that the boundary can take. -/
def takeWaiting (s : State) : State := s.rcu.waiting.foldl (fun s _ => sceneOnlyTaken (sceneTaken s)) s

/-- What is due in samples: lanes, tuner, tempo, slots, tails and line memory, in this order (DESIGN CHOICE, log 2). As a
remnant is freed a marked tail takes its place before the waiting page requests are reconsidered (DESIGN CHOICE, log 70). -/
def settleSamples (s : State) : State :=
  let s := forAll lanes (fun k s => laneDipEnd .output k (laneDipEnd .input k (laneSwitch .output k (laneSwitch .input k s)))) s
  let s := spanTaken .t2 (spanTaken .t1 (relayMuteDone s))
  let s := followerTaken (forAll lanes silentEntry s)
  let s := everySlot trailOver (everySlot trailHoldOver (everySlot gateCloses (windowSettled s)))
  let s := everySlot slotDipOver s
  let s := forAll [0, 1, 2, 3] (fun k s => tailDecayOver k (tailHoldOver k s)) s
  let s := cutMarked (forAll [0, 1, 2, 3] remnantOver s)
  beatTaken (busMuted (releaseOver (requestsTaken s)))

/-- What is due at a block boundary; a hold of 0 that the boundary's own work has set runs out at once (R50). -/
def settleBoundary (s : State) : State :=
  if atBoundary s then
    let s := takeWaiting (everyTable (everySlot slotSwitchPoint s))
    let s := takeWaiting (fadeEnds (midpointTaken (swapTaken (fadeStarts s))))
    everySlot trailHoldOver (startDips (blockBoundary s))
  else s

/-- Everything the part owes itself is taken before a sample is processed (log 2). -/
def settleAll (s : State) : State :=
  let s := if clockDue s then clockRunning s else s
  settleBoundary (settleSamples (reclaimErases (reclaimCopies (requestBegins (restartTaken s)))))

/-! ## The word clock (R11) -/

/-- Is a period in tolerance (R11)? -/
def inTolerance (len : Nat) : Bool := decide (320 ≤ len ∧ len ≤ 347)

/-- A sample period while RUNNING (R3). -/
def sampleTaken (xs : List Sample24) (s : State) : State :=
  let s := settleAll s
  if s.aup.clock = .running then runSample xs s else s

/-- A word clock period ends (R11). -/
def wordClock (len : Nat) (xs : List Sample24) (s : State) : State :=
  let s := withAup (fun a => { a with noEdgeTimer := true }) s
  let s := if clockDue s then clockRunning s else s
  match s.aup.clock with
  | .absent => setClock .settling none s
  | .settling => withAup (fun a => { a with settle := if inTolerance len then a.settle + 1 else 0 }) s
  | .running => if inTolerance len then sampleTaken xs s else clockLost .rate s

/-- The no-edge timer expires (R11). In SETTLING it drops a clock-running notice that is due (DESIGN CHOICE, log 59). -/
def noEdge (s : State) : State :=
  if s.aup.noEdgeTimer then
    let s := withAup (fun a => { a with noEdgeTimer := false }) s
    match s.aup.clock with
    | .absent => s
    | .settling => setClock .absent none s
    | .running => clockLost .noEdge s
  else s

end Sys2Proof.Machine
end

