-- ==== Sys2Proof/Machine/AccessoryDriver.lean ====
section
/-! DEFINITION. The commands of the Accessory Driver (chapter 10): the relay supply, the window settle and BYPASS. -/

namespace Sys2Proof.Machine

/-- The supply falls below 10.8 V: a GOOD monitor enters LOW, and a stability timer stops (R182, R183). -/
def supplyFalls (s : State) : State :=
  if s.acd.supply = .below then s
  else
    let s := withAcd (fun a => { a with supply := .below, stability := false }) s
    if s.acd.supplyGood then supplyLow s else s

/-- SUPPLY_FALL (R183). -/
def execSupplyFall (s : State) : Result := .next (supplyFalls s)

/-- The supply rises above 11.4 V: in LOW the stability timer starts (R182). -/
def supplyRises (s : State) : State :=
  if s.acd.supply = .above then s
  else withAcd (fun a => { a with supply := .above, stability := !a.supplyGood }) s

/-- SUPPLY_RISE (R182). -/
def execSupplyRise (s : State) : Result := .next (supplyRises s)

/-- The supply falls to 11.4 V or below, and stays above 10.8 V: a running stability timer stops (R182). -/
def supplyDrops (s : State) : State :=
  if s.acd.supply = .above then withAcd (fun a => { a with supply := .between, stability := false }) s else s

/-- SUPPLY_DROP_BACK (R182). -/
def execSupplyDropBack (s : State) : Result := .next (supplyDrops s)

/-- STABILITY_TIMER_EXPIRY (R183), while the timer runs. -/
def execStabilityTimerExpiry (s : State) : Result := .next (if s.acd.stability then supplyGoodNow s else s)

/-- WINDOW_SETTLE_COMPLETE (R178). -/
def execWindowSettleComplete (s : State) : Result := .next (windowSettled s)

/-- The body of BYPASS (R186): the reply carries what stands after the request is taken, and goes ahead of what the flag's
change moves and reports. -/
def doBypass (f : Frame) (d : Dest) (s : State) : State :=
  match onOffOfCode (rd f.payload 0) with
  | none => badField d s
  | some op =>
    let a := (manualBypass op s).acd
    manualBypass op (answerOk d (.bypass a.manual a.relay a.conds) s)

/-- The form of BYPASS. -/
def formBypass : Form := ⟨.play, false, fixed 1⟩

/-- BYPASS (R186). -/
def execBypass (f : Frame) (s : State) : Result := .next (accept formBypass doBypass f s)

end Sys2Proof.Machine
end

