-- ==== Sys2Proof/Machine/AudioPort.lean ====
section
/-! DEFINITION. The commands of the Audio Port (chapter 1): the word clock, sample periods, lane dips, the relay-mute gain,
silence detection and LANE. -/

namespace Sys2Proof.Machine

/-- WORD_CLOCK_PERIOD (R11): a measured period ends. -/
def execWordClockPeriod (len : Nat) (xs : List Sample24) (s : State) : Result := .next (wordClock len xs s)

/-- NO_EDGE_TIMER_EXPIRY (R11): the 1 ms timer expires. -/
def execNoEdgeTimerExpiry (s : State) : Result := .next (noEdge s)

/-- CLOCK_RUNNING_NOTICE (R11, R13): the settle count has reached 4,800 and the monitor enters RUNNING. -/
def execClockRunningNotice (s : State) : Result := .next (if clockDue s then clockRunning s else s)

/-- SAMPLE_PERIOD (R3): an in-tolerance period while RUNNING. -/
def execSamplePeriod (xs : List Sample24) (s : State) : Result := .next (sampleTaken xs s)

/-- LANE_DIP_SWITCH_POINT (R7). -/
def execLaneDipSwitchPoint (dir : Dir) (lane : Nat) (s : State) : Result := .next (laneSwitch dir lane s)

/-- LANE_DIP_END (R7). -/
def execLaneDipEnd (dir : Dir) (lane : Nat) (s : State) : Result := .next (laneDipEnd dir lane s)

/-- RELAY_MUTE_COMPLETION (R10). -/
def execRelayMuteCompletion (s : State) : Result := .next (relayMuteDone s)

/-- SILENT_ENTRY (R14, R15). -/
def execSilentEntry (lane : Nat) (s : State) : Result := .next (silentEntry lane s)

/-! ## LANE (R9) -/

/-- A trim as a lane holds it: at most 32,767 (R9). -/
def laneTrim (x : Nat) : Nat := if 32767 < x then 32767 else x

/-- The fields a LANE request carries, each where it is given; a code field holds what its code names. -/
structure LaneFields where
  trim : Option Nat
  inverted : Option Bool
  mute : Option Bool
  threshold : Option Nat
  loopback : Option Nat
  source : Option Source
deriving DecidableEq, Repr

/-- A loopback source: NONE (0) or output lane 1..8. -/
def loopbackOfCode (n : Nat) : Option Nat := if n ≤ 8 then some n else none

/-- Read the fields of a LANE payload after its presence byte (R202); nothing where a code is none of its field's. -/
def readLane (p : List Byte) : Option LaneFields :=
  let o := fieldOffsets (rd p 2) 0 3 [2, 1, 1, 2, 1, 1]
  let at_ := fun i => o.getD i none
  match optField p (at_ 1) flagOfCode, optField p (at_ 2) flagOfCode, optField p (at_ 4) loopbackOfCode,
      optField p (at_ 5) sourceOfCode with
  | some inv, some mute, some loop, some src =>
    some ⟨(at_ 0).map (rd16 p), inv, mute, (at_ 3).map (rd16 p), loop, src⟩
  | _, _, _, _ => none

/-- An input lane record with the fields given written. -/
def LaneFields.toIn (f : LaneFields) (r : InRec) : InRec :=
  { trim := (f.trim.map laneTrim).getD r.trim
    inverted := f.inverted.getD r.inverted
    mute := f.mute.getD r.mute
    threshold := f.threshold.getD r.threshold
    loopback := f.loopback.getD r.loopback }

/-- An output lane record with the fields given written. -/
def LaneFields.toOut (f : LaneFields) (r : OutRec) : OutRec :=
  { source := f.source.getD r.source
    trim := (f.trim.map laneTrim).getD r.trim
    inverted := f.inverted.getD r.inverted
    mute := f.mute.getD r.mute }

/-- CLAMPED if a trim was clamped. -/
def LaneFields.note (f : LaneFields) : Byte := clampedIf ((f.trim.map (fun t => decide (32767 < t))).getD false)

/-- The body of LANE (R9). -/
def doLane (f : Frame) (d : Dest) (s : State) : State :=
  let p := f.payload
  let k := rd p 1
  if 63 < rd p 2 ∨ k = 0 ∨ 8 < k then badField d s
  else
    match readLane p with
    | none => badField d s
    | some r =>
      match rd p 0 with
      | 0 =>
        if r.source.isSome then badField d s
        else
          let s := modInLane k (fun l => l.take (r.toIn l.cfg)) s
          answer (some d) .ok r.note .none s
      | 1 =>
        if r.threshold.isSome ∨ r.loopback.isSome then badField d s
        else
          let s := modOutLane k (fun l => l.take s.aup.override k (r.toOut l.cfg)) s
          answer (some d) .ok r.note .none s
      | _ => badField d s

/-- The length form of LANE (R202). -/
def laneFits (p : List Byte) : Bool := decide (3 ≤ p.length ∧ p.length = 3 + presentLen (rd p 2) 0 [2, 1, 1, 2, 1, 1])

/-- The form of LANE. -/
def formLane : Form := ⟨.edit, false, laneFits⟩

/-- LANE (R9). -/
def execLane (f : Frame) (s : State) : Result := .next (accept formLane doLane f s)

end Sys2Proof.Machine
end

