-- ==== Sys2Proof/Machine/Status.lean ====
section
/-! DEFINITION. What STATUS shows, part by part (R197, and each chapter's own list). -/

namespace Sys2Proof.Machine

/-- AUDIO: the clock state and the silence detectors of the eight input lanes (R11, R15). -/
def statusAudio (s : State) : StatusData := .audio s.aup.clock (lanes.map (fun k => (inLane s k).silence.silent))

/-- A buffer's state, preset number and generation (R47). An EMPTY buffer has no chain record, and STATUS shows its preset number and
generation as 0 (DESIGN CHOICE, log 83). -/
def bufStatus (u : Buffer) : BufState × Nat × Nat := (u.state, u.chain.preset, u.chain.gen)

/-- ENGINE: the buffers; scene, edited flag and slots of the ACTIVE buffer; the mute set, the bus mute ramp's value and the load
(R47, R58, R59). -/
def statusEngine (s : State) : StatusData :=
  let c := (activeBuf s).map (fun bid => (buf s bid).chain)
  .engine [bufStatus s.tne.bufA, bufStatus s.tne.bufB] (c.map (·.scene)) (c.map (·.edited))
    ((c.map (fun c => c.slots.map (fun sl => (⟨sl.kind, sl.bypass, sl.thru⟩ : SlotStatus)))).getD [])
    s.tne.mute s.tne.muteRamp.v s.tne.load

/-- TAILS: the free pool, the request list, the tail set in age order and the remnants (R61, R64, R69, R75). -/
def statusTails (s : State) : StatusData :=
  .tails s.lma.free.length (s.lma.requests.map (fun l => (l.head?).map PageReq.pages))
    (s.tne.tails.map (fun tl => (⟨tl.index, tl.kind, tl.preset, tl.phase, tl.marked, tl.hold / 48⟩ : TailStatus)))
    (remnantList s.tne).length

/-- A tuner channel as STATUS shows it (R99). -/
def chanStatus (s : State) (ch : ChanId) : ChannelStatus := ⟨(chan s ch).lock, (chan s ch).display, chanSilent s ch⟩

/-- TUNER: the channels, reference and window, tune mode record and selected channel (R99). -/
def statusTuner (s : State) : StatusData :=
  .tuner (chanStatus s .t1) (chanStatus s .t2) s.tun.ref s.tun.window s.tun.mode (selected s)

/-- TEMPO: what R112 lists. -/
def statusTempo (s : State) : StatusData :=
  let t := s.tmp
  .tempo t.internal t.midiSource t.presetSets t.tempo t.beat t.heldTempo t.heldBeat t.source t.intervals t.follower.state
    t.follower.b (t.follower.history.count true) t.beatCount

/-- A held-switch entry, with the ms a DOWN switch has been held (R114). -/
def switchStatus (s : State) (k : Nat) : SwitchStatus :=
  let e := switchAt s k
  ⟨e, if e.down then e.pressedAt.map (fun t => s.timebase / 1000 - t) else none⟩

/-- SWITCH: the held-switch table, the flags, the bank and the bank select value (R114, R126, R131). -/
def statusSwitch (s : State) : StatusData :=
  .switch ((List.range 24).map (switchStatus s)) s.swc.flags s.swc.bank s.swc.bankSelect

/-- RECALL: the state, the target of the recall in flight, the pending slot and the identity (R132, R133). -/
def statusRecall (s : State) : StatusData :=
  .recall s.rcu.state (s.rcu.flight.map (fun r => (r.preset, r.scene))) s.rcu.pending s.rcu.ident

/-- STORE: sectors, bytes, queue, locks and reclaim (R156, R159, R161, R169). -/
def statusStore (s : State) : StatusData :=
  let p := s.pst
  .store (erasedCount p) ((openSector p).map (fun e => (e.1, e.2.next))) (liveBytes p) (deadBytes p) p.queue.length
    ((p.queue.head?).map StoreReq.op) p.lock p.settingsLock p.lockKey
    (p.reclaim.map (fun r => (r.victim, (liveOf p r.victim).length)))

/-- ACCESSORY: what chapter 10.6 lists. -/
def statusAccessory (s : State) : StatusData :=
  let a := s.acd
  .accessory a.requested a.switched a.drive (a.window.map (fun w => (w.phase, w.pending, w.restoration))) a.next
    a.supplyGood a.relay.energized a.relay a.conds a.manual

/-- A link's part of LINKS (R197). -/
def linkStatus (q : LinkIo) (staging : Option (Nat × List Byte)) : LinkStatus :=
  ⟨q.subs, q.entries.length, q.reports.length, q.drops, staging⟩

/-- LINKS: ownership, permission, the foot link, both links, and the sample mode (R197). -/
def statusLinks (s : State) : StatusData :=
  let k := s.lkc
  .links k.owner k.footPermit k.footUp k.footRun (linkStatus k.main k.stageMain) (linkStatus k.foot k.stageFoot) k.sampleMode

/-- The part a section number names (R202). -/
def statusOf (s : State) : Nat → Option StatusData
  | 0 => some (statusAudio s)
  | 1 => some (statusEngine s)
  | 2 => some (statusTails s)
  | 3 => some (statusTuner s)
  | 4 => some (statusTempo s)
  | 5 => some (statusSwitch s)
  | 6 => some (statusRecall s)
  | 7 => some (statusStore s)
  | 8 => some (statusAccessory s)
  | 9 => some (statusLinks s)
  | _ => none

end Sys2Proof.Machine
end

