-- ==== Sys2Proof/Machine/TunerUnit.lean ====
section
/-! DEFINITION. The commands of the Tuner Unit (chapter 5): completed measurements, timers, TUNE and TUNER_REF. -/

namespace Sys2Proof.Machine

/-- MEASUREMENT_COMPLETE (R81, R98). -/
def execMeasurementComplete (ch : ChanId) (s : State) : Result := .next (spanTaken ch s)

/-- MEASUREMENT_TIMER_EXPIRY (R82). -/
def execMeasurementTimerExpiry (ch : ChanId) (s : State) : Result := .next (spanTimeout ch s)

/-- DISPLAY_EXPIRY (R92). -/
def execDisplayExpiry (ch : ChanId) (s : State) : Result := .next (displayOver ch s)

/-! ## TUNE (R93) -/

/-- The fields a TUNE request or the tune group of SET_GLOBAL carries, each where it is given. -/
structure TuneFields where
  channel : Option TuneChannel
  policy : Option Policy
  exitOnRecall : Option Bool
deriving DecidableEq, Repr

/-- The record with the fields given written. -/
def TuneFields.write (f : TuneFields) (m : TuneMode) : TuneMode :=
  { m with
    channel := f.channel.getD m.channel
    policy := f.policy.getD m.policy
    exitOnRecall := f.exitOnRecall.getD m.exitOnRecall }

/-- Read the tune fields of a payload at their offsets; nothing where a code is none of its field's. -/
def readTune (p : List Byte) (channel policy exit_ : Option Nat) : Option TuneFields :=
  match optField p channel tuneChannelOfCode, optField p policy policyOfCode, optField p exit_ flagOfCode with
  | some c, some q, some e => some ⟨c, q, e⟩
  | _, _, _ => none

/-- The body of TUNE (R93). -/
def doTune (f : Frame) (d : Dest) (s : State) : State :=
  let p := f.payload
  let o := fieldOffsets (rd p 1) 0 2 [1, 1, 1]
  if 7 < rd p 1 then badField d s
  else
    match onOffOfCode (rd p 0), readTune p (o.getD 0 none) (o.getD 1 none) (o.getD 2 none) with
    | some op, some r =>
      let s := changeTune (fun m => { r.write m with on := op.apply m.on }) s
      answerOk d (.tune s.tun.mode) s
    | _, _ => badField d s

/-- The length form of TUNE (R202). -/
def tuneFits (p : List Byte) : Bool := decide (2 ≤ p.length ∧ p.length = 2 + presentLen (rd p 1) 0 [1, 1, 1])

/-- The form of TUNE. -/
def formTune : Form := ⟨.play, false, tuneFits⟩

/-- TUNE (R93). -/
def execTune (f : Frame) (s : State) : Result := .next (accept formTune doTune f s)

/-! ## TUNER_REF (R85, R91) -/

/-- A window length. -/
def windowOfCode (n : Nat) : Option Nat := if n = 0 ∨ n = 4 ∨ n = 5 ∨ n = 6 then some n else none

/-- The body of TUNER_REF (R85): the new values are held, the reference clamped to 4000..4800. The
TUNER_LOCK reports of channels taken out of LOCKED come before the reply (DESIGN CHOICE, log 61). -/
def doTunerRef (f : Frame) (d : Dest) (s : State) : State :=
  let p := f.payload
  let o := fieldOffsets (rd p 0) 0 1 [2, 1]
  let ref := (o.getD 0 none).map (rd16 p)
  if rd p 0 = 0 ∨ 3 < rd p 0 then badField d s
  else
    match optField p (o.getD 1 none) windowOfCode with
    | none => badField d s
    | some w =>
      let s := match ref with | some x => setReference (clampNat 4000 4800 x) s | none => s
      let s := match w with | some n => setWindow n s | none => s
      answer (some d) .ok (clampedIf (decide (ref.map (clampNat 4000 4800) ≠ ref))) .none s

/-- The length form of TUNER_REF (R202). -/
def tunerRefFits (p : List Byte) : Bool := decide (1 ≤ p.length ∧ p.length = 1 + presentLen (rd p 0) 0 [2, 1])

/-- The form of TUNER_REF. -/
def formTunerRef : Form := ⟨.edit, false, tunerRefFits⟩

/-- TUNER_REF (R85). -/
def execTunerRef (f : Frame) (s : State) : Result := .next (accept formTunerRef doTunerRef f s)

end Sys2Proof.Machine
end

