-- ==== Sys2Proof/Machine/LinkController.lean ====
section
/-! DEFINITION. The commands of the Link Controller (chapter 11), but for the receivers: the transmitters, ownership, permission,
subscriptions, settings, counters, STATUS, IDENT and RESTART. -/

namespace Sys2Proof.Machine

/-- FRAME_SENT (R190, R194). -/
def execFrameSent (l : Link) (s : State) : Result := .next (frameDone l s)

/-! ## EDIT_OWNER and FOOT_PERMIT (R191, R192) -/

/-- Answer EDIT_OWNER with the owner after it. -/
def answerOwner (d : Dest) (code : Code) (s : State) : State := answer (some d) code 0 (.owner s.lkc.owner) s

/-- TAKE (R191). The OWNER report comes before the reply (DESIGN CHOICE, log 61). -/
def takeOwner (l : Link) (d : Dest) (s : State) : State :=
  match l with
  | .main =>
    match s.lkc.owner with
    | .none => answerOwner d .ok (setOwnerTo .main .take s)
    | .main => answerOwner d .ok s
    | .foot => answerOwner d .ok (setOwnerTo .main .displaced s)
  | .foot =>
    if !s.lkc.footPermit || !s.lkc.footUp then answerOwner d .notPermitted s
    else
      match s.lkc.owner with
      | .none => answerOwner d .ok (setOwnerTo .foot .take s)
      | .main => answerOwner d .notOwner s
      | .foot => answerOwner d .ok s

/-- RELEASE (R191), its report before its reply as with TAKE. -/
def releaseOwner (l : Link) (d : Dest) (s : State) : State :=
  if s.lkc.owner = ownerOf l then answerOwner d .ok (setOwnerTo .none .release s) else answerOwner d .notOwner s

/-- The body of EDIT_OWNER. -/
def doEditOwner (f : Frame) (d : Dest) (s : State) : State :=
  match rd f.payload 0 with
  | 0 => takeOwner f.link d s
  | 1 => releaseOwner f.link d s
  | _ => badField d s

/-- The form of EDIT_OWNER. -/
def formEditOwner : Form := ⟨.control, false, fixed 1⟩

/-- EDIT_OWNER_TAKE (R191). -/
def execEditOwnerTake (f : Frame) (s : State) : Result := .next (accept formEditOwner doEditOwner f s)

/-- EDIT_OWNER_RELEASE (R191). -/
def execEditOwnerRelease (f : Frame) (s : State) : Result := .next (accept formEditOwner doEditOwner f s)

/-- The body of FOOT_PERMIT (R192). The OWNER report comes before the reply (DESIGN CHOICE, log 61). -/
def doFootPermit (f : Frame) (d : Dest) (s : State) : State :=
  match flagOfCode (rd f.payload 0) with
  | none => badField d s
  | some on =>
    let s := setPermit on s
    answerOk d (.permit s.lkc.footPermit s.lkc.owner) s

/-- The form of FOOT_PERMIT. -/
def formFootPermit : Form := ⟨.control, true, fixed 1⟩

/-- FOOT_PERMIT (R192). -/
def execFootPermit (f : Frame) (s : State) : Result := .next (accept formFootPermit doFootPermit f s)

/-! ## SUBSCRIBE and the foot link timer (R193, R194) -/

/-- The body of SUBSCRIBE (R194). -/
def doSubscribe (f : Frame) (d : Dest) (s : State) : State :=
  let set := f.payload.getD 0 0
  if 63 < set.toNat then badField d s
  else answerOk d (.classes set) (modIo f.link (fun q => { q with subs := set }) s)

/-- The form of SUBSCRIBE. -/
def formSubscribe : Form := ⟨.control, false, fixed 1⟩

/-- SUBSCRIBE (R194). -/
def execSubscribe (f : Frame) (s : State) : Result := .next (accept formSubscribe doSubscribe f s)

/-- FOOT_LINK_TIMER_EXPIRY (R193), while the timer runs. -/
def execFootLinkTimerExpiry (s : State) : Result := .next (if s.lkc.footTimer then footExpires s else s)

/-! ## SET_GLOBAL (R196) -/

/-- The fields a SET_GLOBAL request carries, each where it is given. -/
structure GlobalFields where
  tune : TuneFields
  source : Option Bool
  presetSets : Option Bool
  holdTime : Option Nat
  channel : Option (Option Nat)
  directMap : Option Bool
  boot : Option Nat
  sampleMode : Option Bool
deriving DecidableEq, Repr

/-- A MIDI receive channel: OMNI (0) or 1..16. -/
def channelOfCode (n : Nat) : Option (Option Nat) := if n = 0 then some none else if n ≤ 16 then some (some n) else none

/-- Read the fields of a SET_GLOBAL payload (R202); nothing where a field is outside its values. -/
def readGlobal (p : List Byte) : Option GlobalFields :=
  let o := fieldOffsets (rd16 p 0) 0 2 [1, 1, 1, 1, 1, 2, 1, 1, 1, 1]
  let at_ := fun i => o.getD i none
  match readTune p (at_ 0) (at_ 1) (at_ 2), optField p (at_ 3) flagOfCode, optField p (at_ 4) flagOfCode,
      optField p (at_ 6) channelOfCode, optField p (at_ 7) flagOfCode, optField p (at_ 9) flagOfCode with
  | some t, some src, some ps, some ch, some dm, some sm =>
    some ⟨t, src, ps, (at_ 5).map (rd16 p), ch, dm, (at_ 8).map (rd p), sm⟩
  | _, _, _, _, _, _ => none

/-- Sample mode is set: turned on, the snapshot is 0 and the 1 s timer starts (R195). -/
def setSampleMode (on : Bool) (s : State) : State :=
  withLkc (fun k => { k with sampleMode := on, snapshot := if on && !k.sampleMode then [] else k.snapshot }) s

/-- Do what a field given calls for. -/
def given {β : Type} (o : Option β) (f : β → State → State) (s : State) : State :=
  match o with
  | some x => f x s
  | none => s

/-- Every field carried is written (R196). -/
def applyFields (r : GlobalFields) (s : State) : State :=
  let s := if r.tune = ⟨none, none, none⟩ then s else changeTune r.tune.write s
  let s := given r.presetSets (fun x => withTmp (fun t => { t with presetSets := x })) s
  let s := given r.source setTempoSource s
  let s := given r.holdTime (fun x => withSwc (fun w => { w with holdTime := clampNat 200 2000 x })) s
  let s := given r.channel (fun x => withSwc (fun w => { w with channel := x })) s
  let s := given r.directMap (fun x => withSwc (fun w => { w with directMap := x })) s
  let s := given r.boot (fun x => withRcu (fun u => { u with bootPreset := x })) s
  given r.sampleMode setSampleMode s

/-- The body of SET_GLOBAL (R196). Reports come before the reply (DESIGN CHOICE, log 61). -/
def doSetGlobal (f : Frame) (d : Dest) (s : State) : State :=
  let p := f.payload
  if rd16 p 0 = 0 ∨ 1023 < rd16 p 0 then badField d s
  else
    match readGlobal p with
    | none => badField d s
    | some r =>
      answer (some d) .ok (clampedIf (decide (r.holdTime.map (clampNat 200 2000) ≠ r.holdTime))) .none (applyFields r s)

/-- The length form of SET_GLOBAL (R202). -/
def setGlobalFits (p : List Byte) : Bool :=
  decide (2 ≤ p.length ∧ p.length = 2 + presentLen (rd16 p 0) 0 [1, 1, 1, 1, 1, 2, 1, 1, 1, 1])

/-- The form of SET_GLOBAL. -/
def formSetGlobal : Form := ⟨.edit, false, setGlobalFits⟩

/-- SET_GLOBAL (R196). -/
def execSetGlobal (f : Frame) (s : State) : Result := .next (accept formSetGlobal doSetGlobal f s)

/-! ## COUNTERS (R195) -/

/-- The body of COUNTERS: the set read is the snapshot in sample mode, else the live one, and a read-and-clear zeroes it. -/
def doCounters (f : Frame) (d : Dest) (s : State) : State :=
  match flagOfCode (rd f.payload 0) with
  | none => badField d s
  | some clear =>
    let snap := s.lkc.sampleMode
    let values := counterValues (if snap then s.lkc.snapshot else s.lkc.counters)
    let s := if clear then withLkc (fun k => if snap then { k with snapshot := [] } else { k with counters := [] }) s else s
    answerOk d (.counters snap values) s

/-- The form of COUNTERS. -/
def formCounters : Form := ⟨.read, false, fixed 1⟩

/-- COUNTERS (R195). -/
def execCounters (f : Frame) (s : State) : Result := .next (accept formCounters doCounters f s)

/-- The 1 s timer of sample mode expires (R195). -/
def sampleSecond (s : State) : State :=
  if s.lkc.sampleMode then withLkc (fun k => { k with snapshot := k.counters, counters := [] }) s else s

/-- SAMPLE_TIMER_EXPIRY (R195). -/
def execSampleTimerExpiry (s : State) : Result := .next (sampleSecond s)

/-! ## STATUS, IDENT and RESTART (R197, R199) -/

/-- The body of STATUS: the reply is formed at once. -/
def doStatus (f : Frame) (d : Dest) (s : State) : State :=
  match statusOf s (rd f.payload 0) with
  | none => badField d s
  | some data => answerOk d (.status data) s

/-- The form of STATUS. -/
def formStatus : Form := ⟨.read, false, fixed 1⟩

/-- STATUS (R197). -/
def execStatus (f : Frame) (s : State) : Result := .next (accept formStatus doStatus f s)

/-- The body of IDENT. -/
def doIdent (_ : Frame) (d : Dest) (s : State) : State := answerOk d (.ident 0x41 6140 2 8 8 256 256) s

/-- The form of IDENT. -/
def formIdent : Form := ⟨.read, false, fixed 0⟩

/-- IDENT (R197). -/
def execIdent (f : Frame) (s : State) : Result := .next (accept formIdent doIdent f s)

/-- The body of RESTART: it takes effect when the last byte of its reply has been sent. -/
def doRestart (_ : Frame) (d : Dest) (s : State) : State :=
  answerOk d .none (modIo d.link (fun q => { q with
    entries := q.entries.map (fun e => if e.id = d.id then { e with restart := true } else e) }) s)

/-- The form of RESTART. -/
def formRestart : Form := ⟨.control, true, fixed 0⟩

/-- RESTART (R199). -/
def execRestart (f : Frame) (s : State) : Result := .next (accept formRestart doRestart f s)

/-- RESTART_EFFECT (R199). -/
def execRestartEffect (s : State) : Result := .next (restartTaken s)

end Sys2Proof.Machine
end

