-- ==== Sys2Proof/Machine/PresetStore.lean ====
section
/-! DEFINITION. The commands of the Preset Store (chapter 9): store requests, reads, and the steps of flash. -/

namespace Sys2Proof.Machine

/-! ## Store requests (R159, R163 to R167, R198) -/

/-- The body of SAVE (R163): name given, and the name before the first 0; the fields are checked when the request begins. -/
def doSave (f : Frame) (d : Dest) (s : State) : State :=
  let p := f.payload
  storeArrive (.save (rd p 0) (p.getD 1 0) (nameOf ((p.drop 2).take 16))) (some d) s

/-- The form of SAVE. -/
def formSave : Form := ⟨.store, false, fixed 18⟩

/-- SAVE (R163). -/
def execSave (f : Frame) (s : State) : Result := .next (accept formSave doSave f s)

/-- The SAVE_RECORD staging of a link (R198). -/
def stageOf (s : State) : Link → Option (Nat × List Byte)
  | .main => s.lkc.stageMain
  | .foot => s.lkc.stageFoot

/-- Set the SAVE_RECORD staging of a link. -/
def setStage (l : Link) (v : Option (Nat × List Byte)) (s : State) : State :=
  match l with
  | .main => withLkc (fun k => { k with stageMain := v }) s
  | .foot => withLkc (fun k => { k with stageFoot := v }) s

/-- The image bytes staged before a frame's own: none with FIRST, those held for the same number without it; nothing where
the frame is refused (R198 step 1). -/
def stagedBefore (first : Bool) (preset : Nat) (held : Option (Nat × List Byte)) : Option (List Byte) :=
  if first then some []
  else
    match held with
    | some (n, bytes) => if n = preset then some bytes else none
    | none => none

/-- The body of SAVE_RECORD (R198). -/
def doSaveRecord (f : Frame) (d : Dest) (s : State) : State :=
  let p := f.payload
  let preset := rd16 p 0
  let flags := p.getD 2 0
  if 255 < preset ∨ 3 < flags.toNat then badField d s
  else
    match stagedBefore (flags.getLsbD 0) preset (stageOf s f.link) with
    | none => badField d (setStage f.link none s)
    | some held =>
      let image := held ++ p.drop 3
      if 1008 < image.length then badField d (setStage f.link none s)
      else if flags.getLsbD 1 then storeArrive (.saveRecord preset image) (some d) (setStage f.link none s)
      else answerOk d (.staged image.length) (setStage f.link (some (preset, image)) s)

/-- The length form of SAVE_RECORD (R202). -/
def saveRecordFits (p : List Byte) : Bool := decide (3 ≤ p.length ∧ p.length ≤ 243)

/-- The form of SAVE_RECORD. -/
def formSaveRecord : Form := ⟨.store, false, saveRecordFits⟩

/-- SAVE_RECORD (R198). -/
def execSaveRecord (f : Frame) (s : State) : Result := .next (accept formSaveRecord doSaveRecord f s)

/-- The body of DELETE (R165). -/
def doDelete (f : Frame) (d : Dest) (s : State) : State := storeArrive (.delete (rd f.payload 0)) (some d) s

/-- The form of DELETE. -/
def formDelete : Form := ⟨.store, false, fixed 1⟩

/-- DELETE (R165). -/
def execDelete (f : Frame) (s : State) : Result := .next (accept formDelete doDelete f s)

/-- The body of SAVE_SETTINGS (R166). -/
def doSaveSettings (_ : Frame) (d : Dest) (s : State) : State := storeArrive .saveSettings (some d) s

/-- The form of SAVE_SETTINGS. -/
def formSaveSettings : Form := ⟨.store, false, fixed 0⟩

/-- SAVE_SETTINGS (R166). -/
def execSaveSettings (f : Frame) (s : State) : Result := .next (accept formSaveSettings doSaveSettings f s)

/-- The body of SET_LOCK (R167): the fields are checked when the request begins. -/
def doSetLock (f : Frame) (d : Dest) (s : State) : State :=
  let p := f.payload
  storeArrive (.setLock (p.getD 0 0) (p.getD 1 0) (p.getD 2 0) (p.getD 3 0)) (some d) s

/-- The form of SET_LOCK. -/
def formSetLock : Form := ⟨.store, false, fixed 4⟩

/-- SET_LOCK (R167). -/
def execSetLock (f : Frame) (s : State) : Result := .next (accept formSetLock doSetLock f s)

/-! ## The steps of the store -/

/-- REQUEST_BEGIN (R160). -/
def execRequestBegin (s : State) : Result := .next (requestBegins s)

/-- PROGRAM_STEP_COMPLETE (R162, R168). -/
def execProgramStepComplete (matched : Bool) (s : State) : Result := .next (programStep matched s)

/-- FLASH_READ_COMPLETE (R158). -/
def execFlashReadComplete (s : State) : Result := .next (readDone s)

/-- ERASE_COMPLETE (R171). -/
def execEraseComplete (s : State) : Result := .next (eraseOver s)

/-- RECLAIM_COPY (R170). -/
def execReclaimCopy (s : State) : Result := .next (reclaimCopies s)

/-- RECLAIM_ERASE (R171). -/
def execReclaimErase (s : State) : Result := .next (reclaimErases s)

/-- SCAN_COMPLETE (R173 to R175), while the store is SCANNING. -/
def execScanComplete (failed : List Bool) (s : State) : Result := .next (if s.pst.scanning then scanDone failed s else s)

/-! ## Reads (R197) -/

/-- The body of READ_PRESET (R158, R197). -/
def doReadPreset (f : Frame) (d : Dest) (s : State) : State :=
  let n := rd16 f.payload 0
  if 255 < n then badField d s
  else if s.pst.scanning then answerCode (some d) .notReady s
  else enqueueRead ⟨.link d, n⟩ s

/-- The form of READ_PRESET. -/
def formReadPreset : Form := ⟨.read, false, fixed 2⟩

/-- READ_PRESET (R197). -/
def execReadPreset (f : Frame) (s : State) : Result := .next (accept formReadPreset doReadPreset f s)

/-- The body of LIST_PRESETS (R158, R197). -/
def doListPresets (f : Frame) (d : Dest) (s : State) : State :=
  if s.pst.scanning then answerCode (some d) .notReady s
  else answerOk d (.bytes (summaryFrom s.pst (rd f.payload 0))) s

/-- The form of LIST_PRESETS. -/
def formListPresets : Form := ⟨.read, false, fixed 1⟩

/-- LIST_PRESETS (R197). -/
def execListPresets (f : Frame) (s : State) : Result := .next (accept formListPresets doListPresets f s)

end Sys2Proof.Machine
end

