-- ==== Sys2Proof/Machine/RecallUnit.lean ====
section
/-! DEFINITION. The commands of the Recall Unit (chapter 8): RECALL, SCENE and the boundaries of a recall. -/

namespace Sys2Proof.Machine

/-- A quantize option: OFF, ON or PRESET, which is no value (R202). -/
def quantOfCode : Nat → Option (Option Bool)
  | 0 => some (some false)
  | 1 => some (some true)
  | 2 => some none
  | _ => none

/-- The body of RECALL (R134): the reply is given when the recall ends. The fade length is disregarded where the override is
absent (DESIGN CHOICE, log 67). -/
def doRecall (f : Frame) (d : Dest) (s : State) : State :=
  let p := f.payload
  match quantOfCode (rd p 2), flagOfCode (rd p 3) with
  | some q, some given =>
    if 3 < rd p 1 then badField d s
    else
      takeRecall
        { preset := rd p 0, scene := rd p 1, quant := q, fade := if given then some (rd16 p 4) else none
          origin := .link f.link f.tag, dest := some d } s
  | _, _ => badField d s

/-- The form of RECALL. -/
def formRecall : Form := ⟨.play, false, fixed 6⟩

/-- RECALL (R134). -/
def execRecall (f : Frame) (s : State) : Result := .next (accept formRecall doRecall f s)

/-- The body of SCENE (R136): a scene outside 0..3 is refused by R136's own check. -/
def doScene (f : Frame) (d : Dest) (s : State) : State := takeScene (rd f.payload 0) (.link f.link f.tag) (some d) s

/-- The form of SCENE. -/
def formScene : Form := ⟨.play, false, fixed 1⟩

/-- SCENE (R136). -/
def execScene (f : Frame) (s : State) : Result := .next (accept formScene doScene f s)

/-- SCENE_APPLICATION (R136). -/
def execSceneApplication (s : State) : Result := .next (sceneTaken s)

/-- SCENE_ONLY_RECALL (R135). -/
def execSceneOnlyRecall (s : State) : Result := .next (sceneOnlyTaken s)

/-- FADE_START (R144). -/
def execFadeStart (s : State) : Result := .next (fadeStarts s)

/-- SWAP (R145). -/
def execSwap (s : State) : Result := .next (swapTaken s)

/-- MIDPOINT (R146). -/
def execMidpoint (s : State) : Result := .next (midpointTaken s)

/-- FADE_END (R147). -/
def execFadeEnd (s : State) : Result := .next (fadeEnds s)

end Sys2Proof.Machine
end

