-- ==== Sys2Proof/Machine/SwitchController.lean ====
section
/-! DEFINITION. The commands of the Switch Controller (chapter 7): switch edges and hold timers, MIDI messages, flags and the
binding table. -/

namespace Sys2Proof.Machine

/-! ## SWITCH (R113, R115, R117) -/

/-- May a switch number come from a link: 0..15 from the foot link, 16..23 from the main link (R113)? -/
def switchFrom (l : Link) (k : Nat) : Bool :=
  match l with
  | .foot => decide (k < 16)
  | .main => decide (16 ≤ k ∧ k < 24)

/-- An IGNORED edge: one link event error, and the reply with the switch's state (R113). -/
def ignoreEdge (k : Nat) (d : Dest) (s : State) : State :=
  answerOk d (.switch false (switchAt s k).down) (countEvent ctrEvent s)

/-- The body of SWITCH (R113): the reply is given when the edge has been taken, before the actions it fires. -/
def doSwitch (f : Frame) (d : Dest) (s : State) : State :=
  let k := rd f.payload 0
  if !switchFrom f.link k then badField d s
  else
    match rd f.payload 1 with
    | 0 => if (switchAt s k).down then ignoreEdge k d s else press k (answerOk d (.switch true true) s)
    | 1 => if (switchAt s k).down then release false k (answerOk d (.switch true false) s) else ignoreEdge k d s
    | _ => badField d s

/-- The form of SWITCH. -/
def formSwitch : Form := ⟨.play, false, fixed 2⟩

/-- SWITCH_PRESS (R113, R115). -/
def execSwitchPress (f : Frame) (s : State) : Result := .next (accept formSwitch doSwitch f s)

/-- SWITCH_RELEASE (R113, R117). -/
def execSwitchRelease (f : Frame) (s : State) : Result := .next (accept formSwitch doSwitch f s)

/-- The hold timer of a DOWN switch expires (R116). -/
def holdOver (k : Nat) (s : State) : State :=
  if k < 24 ∧ (switchAt s k).down ∧ (switchAt s k).timer = .running then holdExpires k s else s

/-- HOLD_TIMER_EXPIRY (R116). -/
def execHoldTimerExpiry (k : Nat) (s : State) : Result := .next (holdOver k s)

/-! ## MIDI (R120 to R122, R188) -/

/-- A control change of a channel completes (R120, R121). -/
def controlChange (ch c v : Nat) (s : State) : State :=
  let s := afterMessage (175 + ch) s
  if receives s ch then takeControl c v s else s

/-- CONTROL_CHANGE (R121). -/
def execControlChange (ch c v : Nat) (s : State) : Result := .next (controlChange ch c v s)

/-- A program change of a channel completes (R120, R122). -/
def programChange (ch n : Nat) (s : State) : State :=
  let s := afterMessage (191 + ch) s
  if receives s ch then takeProgram n s else s

/-- PROGRAM_CHANGE (R122). -/
def execProgramChange (ch n : Nat) (s : State) : Result := .next (programChange ch n s)

/-- MIDI_STATUS_BYTE (R120): a byte of the MIDI line is taken by its value. -/
def execMidiStatusByte (byte : Byte) (s : State) : Result := .next (takeMidi byte s)

/-- A MIDI byte with a missing stop bit: the data gathered are cleared and the running status is kept (R188). -/
def midiFrameError (s : State) : State := countEvent ctrMidi (withSwc (fun w => { w with gathered := [] }) s)

/-- MIDI_FRAME_ERROR (R188). -/
def execMidiFrameError (s : State) : Result := .next (midiFrameError s)

/-! ## FLAGS, BIND and READ_BINDING (R123, R126) -/

/-- The body of FLAGS (R126). -/
def doFlags (f : Frame) (d : Dest) (s : State) : State :=
  match flagOpOfCode (rd f.payload 0) with
  | none => badField d s
  | some op =>
    let flags := op.apply (f.payload.getD 1 0) s.swc.flags
    answerOk d (.flags flags) (withSwc (fun w => { w with flags := flags }) s)

/-- The form of FLAGS. -/
def formFlags : Form := ⟨.play, false, fixed 2⟩

/-- FLAGS (R126). -/
def execFlags (f : Frame) (s : State) : Result := .next (accept formFlags doFlags f s)

/-- The body of BIND (R123): the record is written, its FLIP pointer is 0 and its in-flight list empty. -/
def doBind (f : Frame) (d : Dest) (s : State) : State :=
  let k := rd f.payload 0
  if 63 < k then badField d s
  else
    match parseBinding (f.payload.drop 1) with
    | none => badField d s
    | some r =>
      answerOk d .none (withSwc (fun w => { w with
        bindings := Mem.set {} w.bindings k r
        flips := Mem.drop w.flips k }) s)

/-- The form of BIND. -/
def formBind : Form := ⟨.edit, false, fixed 13⟩

/-- BIND (R123). -/
def execBind (f : Frame) (s : State) : Result := .next (accept formBind doBind f s)

/-- The body of READ_BINDING (R123, R201). -/
def doReadBinding (f : Frame) (d : Dest) (s : State) : State :=
  let k := rd f.payload 0
  if 63 < k then badField d s
  else answerOk d (.bytes (bindingBytes (bindingAt s k) ++ bytesBool (flipAt s k).pointer)) s

/-- The form of READ_BINDING. -/
def formReadBinding : Form := ⟨.read, false, fixed 1⟩

/-- READ_BINDING (R123). -/
def execReadBinding (f : Frame) (s : State) : Result := .next (accept formReadBinding doReadBinding f s)

end Sys2Proof.Machine
end

