-- ==== Sys2Proof/Machine/TempoUnit.lean ====
section
/-! DEFINITION. The commands of the Tempo Unit (chapter 6): TEMPO, TAP, MIDI clock, the follower and beats. -/

namespace Sys2Proof.Machine

/-- The body of TEMPO (R102). TEMPO_VALUE comes before the reply (DESIGN CHOICE, log 61). -/
def doTempo (f : Frame) (d : Dest) (s : State) : State :=
  let x := rd16 f.payload 0
  let tempo := clampTempo x
  let s := endSeries (setInternal tempo s)
  answer (some d) .ok (clampedIf (decide (tempo ≠ x)))
    (.tempo s.tmp.internal s.tmp.midiSource s.tmp.follower.state s.tmp.tempo) s

/-- The form of TEMPO. -/
def formTempo : Form := ⟨.play, false, fixed 2⟩

/-- TEMPO (R102). -/
def execTempo (f : Frame) (s : State) : Result := .next (accept formTempo doTempo f s)

/-- The body of TAP (R103): the outcome, the interval list's length and the tempo in use after the tap. A report of the tap
comes before its reply (DESIGN CHOICE, log 61). -/
def doTap (_ : Frame) (d : Dest) (s : State) : State :=
  let r := takeTap s
  answerOk d (.tap r.2 r.1.tmp.intervals.length r.1.tmp.tempo) r.1

/-- The form of TAP. -/
def formTap : Form := ⟨.play, false, fixed 0⟩

/-- TAP (R103). -/
def execTap (f : Frame) (s : State) : Result := .next (accept formTap doTap f s)

/-- MIDI_CLOCK (R105). -/
def execMidiClock (s : State) : Result := .next (takeClockByte s)

/-- FOLLOWER_MEASUREMENT (R105, R106). -/
def execFollowerMeasurement (s : State) : Result := .next (followerTaken s)

/-- NO_CLOCK_TIMER_EXPIRY (R106). -/
def execNoClockTimerExpiry (s : State) : Result := .next (noClockOver s)

/-- BEAT_EVENT (R108). -/
def execBeatEvent (s : State) : Result := .next (beatTaken s)

end Sys2Proof.Machine
end

