-- ==== Sys2Proof/Machine/ToneEngine.lean ====
section
/-! DEFINITION. The commands of the Tone Engine (chapter 3): block and slot events, table changes, parameter and table requests,
the controller map and pedals. -/

namespace Sys2Proof.Machine

/-- BLOCK_BOUNDARY (R35, R44, R59). -/
def execBlockBoundary (s : State) : Result := .next (blockBoundary s)

/-- SLOT_DIP_SWITCH_POINT (R44). -/
def execSlotDipSwitchPoint (bid : BufId) (slot : Nat) (s : State) : Result := .next (slotSwitchPoint bid slot s)

/-- SLOT_DIP_END (R44). -/
def execSlotDipEnd (bid : BufId) (slot : Nat) (s : State) : Result := .next (slotDipOver bid slot s)

/-- TABLE_CHANGE_BOUNDARY (R46). -/
def execTableChangeBoundary (r : TableRef) (s : State) : Result := .next (tableBoundary r s)

/-- GATE_CLOSE (R39). -/
def execGateClose (bid : BufId) (slot : Nat) (s : State) : Result := .next (gateCloses bid slot s)

/-- TRAIL_HOLD_EXPIRY (R50). -/
def execTrailHoldExpiry (bid : BufId) (slot : Nat) (s : State) : Result := .next (trailHoldOver bid slot s)

/-- TRAIL_END (R50). -/
def execTrailEnd (bid : BufId) (slot : Nat) (s : State) : Result := .next (trailOver bid slot s)

/-- BUS_MUTED_NOTICE (R58, R185). -/
def execBusMutedNotice (s : State) : Result := .next (busMuted s)

/-! ## SET_PARAM and SLOT_BYPASS (R52, R53) -/

/-- An edit reaches a buffer: its edited flag is set, and the identity's where it describes the buffer (R52, R54, R132). -/
def markEdited (bid : BufId) (s : State) : State :=
  let s := modBuf bid (fun u => { u with editedSince := true, chain := { u.chain with edited := true } }) s
  if s.rcu.state = .fading then s
  else { s with rcu := { s.rcu with ident := { s.rcu.ident with edited := true } } }

/-- The stored value of a parameter is written: to the current scene's last override for it, else to the parameter set (R52). -/
def storeParam (slot i : Nat) (v : Int) (c : Chain) : Chain :=
  let hit := fun o : Override => o.slot == slot && o.param == i
  if (c.scenes.getD c.scene {}).overrides.any hit then
    { c with scenes := modAt c.scenes c.scene (fun sc =>
        { sc with overrides := modLast hit (fun o => { o with value := v }) sc.overrides }) }
  else { c with slots := modAt c.slots slot (fun sl => { sl with params := sl.params.set i v }) }

/-- The running value of a parameter moves, over 512 samples where it has a ramp (R52). -/
def runParam (bid : BufId) (slot i : Nat) (v : Int) (s : State) : State :=
  modSlot bid slot (fun sl => changeParam s.tmp.beat (regionLen s.lma sl.voice.region) i v 512 sl) s

/-- The body of SET_PARAM (R52). -/
def doSetParam (f : Frame) (d : Dest) (s : State) : State :=
  let p := f.payload
  match editBuf s with
  | none => answerCode (some d) .notReady s
  | some bid =>
    match slotAt s bid (rd p 0) with
    | none => badField d s
    | some sl =>
      if sl.kind.count ≤ rd p 1 then badField d s
      else
        let x := sl.kind.read (rd p 1) p 2
        let v := sl.kind.clamp (rd p 1) x
        let s := runParam bid (rd p 0) (rd p 1) v (modChain bid (storeParam (rd p 0) (rd p 1) v) s)
        answer (some d) .ok (clampedIf (decide (v ≠ x))) .none (markEdited bid s)

/-- The form of SET_PARAM. -/
def formSetParam : Form := ⟨.edit, false, fixed 4⟩

/-- SET_PARAM (R52). -/
def execSetParam (f : Frame) (s : State) : Result := .next (accept formSetParam doSetParam f s)

/-- The current scene's bypass set names a slot when its state is the opposite of its default bypass (R53). -/
def storeBypass (slot : Nat) (bypassed : Bool) (c : Chain) : Chain :=
  match c.slots[slot]? with
  | none => c
  | some sl =>
    let bit : BitVec 16 := 1 <<< slot
    { c with scenes := modAt c.scenes c.scene (fun sc =>
        { sc with bypass := if bypassed = sl.defBypass then sc.bypass &&& ~~~bit else sc.bypass ||| bit }) }

/-- The body of SLOT_BYPASS (R53). -/
def doSlotBypass (f : Frame) (d : Dest) (s : State) : State :=
  let p := f.payload
  match editBuf s with
  | none => answerCode (some d) .notReady s
  | some bid =>
    match slotAt s bid (rd p 0), onOffOfCode (rd p 1) with
    | some sl, some op =>
      let bypassed := bypassAsked op sl
      let s := modSlot bid (rd p 0) (setBypass bypassed) (modChain bid (storeBypass (rd p 0) bypassed) s)
      answerOk d .none (markEdited bid s)
    | _, _ => badField d s

/-- The form of SLOT_BYPASS. -/
def formSlotBypass : Form := ⟨.edit, false, fixed 2⟩

/-- SLOT_BYPASS (R53). -/
def execSlotBypass (f : Frame) (s : State) : Result := .next (accept formSlotBypass doSlotBypass f s)

/-! ## CURVE and FILTER_SET (R45) -/

/-- The length form of CURVE (R202); a mode that is no mode is left to the body. -/
def curveFits (p : List Byte) : Bool :=
  if p.length < 2 then false
  else
    match rd p 1 with
    | 0 => decide (6 ≤ p.length ∧ p.length = 6 + 3 * rd p 4)
    | 1 => decide (p.length = 2)
    | _ => true

/-- The form of CURVE. -/
def formCurve : Form := ⟨.edit, false, curveFits⟩

/-- The reply of CURVE: the table's state, whether incoming contents wait, and the size of the written set (R45). -/
def curveReply (c : Curve) : ReplyData := .curve c.current.isSome c.incoming.isSome c.written.length

/-- The entries of a CURVE payload, clamped to the sample range. -/
def curveEntries (p : List Byte) : List Int := (List.range (rd p 4)).map (fun i => sat (rdS24 p (6 + 3 * i)))

/-- Entries are written into the staging table from an index on; a full written set makes it the incoming contents (R45). -/
def Curve.load (start : Bool) (first : Nat) (xs : List Int) (c : Curve) : Curve :=
  let written := if start then [] else c.written
  let written := (List.range xs.length).foldl (fun w i => insertNat (first + i) w) written
  let staging := Mem.setMany 0 c.staging first xs
  if written.length = 257 then
    { c with staging := staging, incoming := some (some (Mem.getMany 0 staging 0 257)), written := [] }
  else { c with staging := staging, written := written }

/-- Incoming contents replace those already waiting (R45). -/
def Curve.clearNext (c : Curve) : Curve := { c with incoming := some none, written := [] }

/-- The contents of a curve change, and the request is answered. -/
def putCurve (i : Nat) (g : Curve → Curve) (note : Byte) (d : Dest) (s : State) : State :=
  let s := withTne (fun t => { t with curves := Mem.modify {} t.curves i g }) s
  answer (some d) .ok note (curveReply (Mem.get {} s.tne.curves i)) s

/-- The body of CURVE (R45). An entry of three signed bytes never leaves the sample range, so none is ever clamped. -/
def doCurve (f : Frame) (d : Dest) (s : State) : State :=
  let p := f.payload
  if 15 < rd p 0 then badField d s
  else
    match rd p 1 with
    | 0 =>
      let n := rd p 4
      if n = 0 ∨ 80 < n ∨ 257 < rd16 p 2 + n then badField d s
      else
        match flagOfCode (rd p 5) with
        | none => badField d s
        | some start => putCurve (rd p 0) (Curve.load start (rd16 p 2) (curveEntries p)) 0 d s
    | 1 => putCurve (rd p 0) Curve.clearNext 0 d s
    | _ => badField d s

/-- CURVE_LOAD (R45). -/
def execCurveLoad (f : Frame) (s : State) : Result := .next (accept formCurve doCurve f s)

/-- CURVE_CLEAR (R45). -/
def execCurveClear (f : Frame) (s : State) : Result := .next (accept formCurve doCurve f s)

/-- The length form of FILTER_SET (R202). -/
def filterFits (p : List Byte) : Bool :=
  if p.length < 2 then false
  else
    match rd p 1 with
    | 0 => decide (3 ≤ p.length ∧ p.length = 3 + 10 * rd p 2)
    | 1 => decide (p.length = 2)
    | _ => true

/-- The form of FILTER_SET. -/
def formFilterSet : Form := ⟨.edit, false, filterFits⟩

/-- The sections of a FILTER_SET payload. -/
def filterSections (p : List Byte) : List Biquad :=
  (List.range (rd p 2)).map (fun i =>
    let o := 3 + 10 * i
    ⟨rdS16 p o, rdS16 p (o + 2), rdS16 p (o + 4), rdS16 p (o + 6), rdS16 p (o + 8)⟩)

/-- A filter set takes incoming contents, and the request is answered. -/
def putFilter (i : Nat) (next : Option (List Biquad)) (d : Dest) (s : State) : State :=
  let s := withTne (fun t => { t with filters := Mem.modify {} t.filters i (fun c => { c with incoming := some next }) }) s
  let c := Mem.get {} s.tne.filters i
  answerOk d (.filterSet c.current.isSome c.incoming.isSome) s

/-- The body of FILTER_SET (R45). -/
def doFilterSet (f : Frame) (d : Dest) (s : State) : State :=
  let p := f.payload
  if 31 < rd p 0 then badField d s
  else
    match rd p 1 with
    | 0 => if rd p 2 = 0 ∨ 6 < rd p 2 then badField d s else putFilter (rd p 0) (some (filterSections p)) d s
    | 1 => putFilter (rd p 0) none d s
    | _ => badField d s

/-- FILTER_SET_LOAD (R45). -/
def execFilterSetLoad (f : Frame) (s : State) : Result := .next (accept formFilterSet doFilterSet f s)

/-- FILTER_SET_CLEAR (R45). -/
def execFilterSetClear (f : Frame) (s : State) : Result := .next (accept formFilterSet doFilterSet f s)

/-! ## CTRL_MAP and PEDAL (R55, R56) -/

/-- The body of CTRL_MAP (R55). -/
def doCtrlMap (f : Frame) (d : Dest) (s : State) : State :=
  let p := f.payload
  if 7 < rd p 0 then badField d s
  else
    match parseMapEntry p 1 with
    | none => badField d s
    | some (e, clamped) =>
      answer (some d) .ok (clampedIf clamped) .none
        (withTne (fun t => { t with ctrlMap := Mem.set none t.ctrlMap (rd p 0) e }) s)

/-- The form of CTRL_MAP. -/
def formCtrlMap : Form := ⟨.edit, false, fixed 10⟩

/-- CTRL_MAP (R55). -/
def execCtrlMap (f : Frame) (s : State) : Result := .next (accept formCtrlMap doCtrlMap f s)

/-- The body of PEDAL (R56): P0 stands at key 120, P1 at 121. -/
def doPedal (f : Frame) (d : Dest) (s : State) : State :=
  let p := f.payload
  match flagOfCode (rd p 0) with
  | none => badField d s
  | some second =>
    let v := min 1023 (rd16 p 1)
    let note := clampedIf (decide (1023 < rd16 p 1))
    answer (some d) .ok note .none (setSource (if second then 121 else 120) v s)

/-- The form of PEDAL. -/
def formPedal : Form := ⟨.play, false, fixed 3⟩

/-- PEDAL (R56). -/
def execPedal (f : Frame) (s : State) : Result := .next (accept formPedal doPedal f s)

end Sys2Proof.Machine
end

