-- ==== Sys2Proof/Machine/Frames.lean ====
section
/-! DEFINITION. The request kinds by code, the receivers of the two links, and the commands they give (R188, R189). -/

namespace Sys2Proof.Machine

/-! ## Request kinds (R189) -/

/-- The form and the body of a request kind, by its code; nothing for a code that is no request kind. -/
def kindOfRequest : Nat → Option (Form × (Frame → Dest → State → State))
  | 0x01 => some (formRecall, doRecall)
  | 0x02 => some (formScene, doScene)
  | 0x03 => some (formSwitch, doSwitch)
  | 0x04 => some (formPedal, doPedal)
  | 0x05 => some (formTune, doTune)
  | 0x06 => some (formTempo, doTempo)
  | 0x07 => some (formTap, doTap)
  | 0x08 => some (formFlags, doFlags)
  | 0x09 => some (formBypass, doBypass)
  | 0x10 => some (formSetParam, doSetParam)
  | 0x11 => some (formSlotBypass, doSlotBypass)
  | 0x12 => some (formCurve, doCurve)
  | 0x13 => some (formFilterSet, doFilterSet)
  | 0x14 => some (formLane, doLane)
  | 0x15 => some (formBind, doBind)
  | 0x16 => some (formCtrlMap, doCtrlMap)
  | 0x17 => some (formTunerRef, doTunerRef)
  | 0x18 => some (formSetGlobal, doSetGlobal)
  | 0x20 => some (formSave, doSave)
  | 0x21 => some (formSaveRecord, doSaveRecord)
  | 0x22 => some (formDelete, doDelete)
  | 0x23 => some (formSaveSettings, doSaveSettings)
  | 0x24 => some (formSetLock, doSetLock)
  | 0x30 => some (formReadPreset, doReadPreset)
  | 0x31 => some (formReadBinding, doReadBinding)
  | 0x32 => some (formStatus, doStatus)
  | 0x33 => some (formCounters, doCounters)
  | 0x34 => some (formIdent, doIdent)
  | 0x35 => some (formListPresets, doListPresets)
  | 0x40 => some (formEditOwner, doEditOwner)
  | 0x41 => some (formSubscribe, doSubscribe)
  | 0x42 => some (formFootPermit, doFootPermit)
  | 0x43 => some (formRestart, doRestart)
  | _ => none

/-- A valid frame of any KIND is accepted (R189). -/
def takeFrame (kind : Byte) (f : Frame) (s : State) : State :=
  match kindOfRequest kind.toNat with
  | some (form, body) => accept form body f s
  | none => enter f (fun d s => answerCode (some d) .unknownKind s) s

/-- UNKNOWN_KIND (R189 step 2); a KIND that is a request kind makes its own request. -/
def execUnknownKind (kind : Byte) (f : Frame) (s : State) : Result := .next (takeFrame kind f s)

/-! ## The receivers (R188) -/

/-- A link's receiver. -/
def receiver (s : State) : Link → Receiver
  | .main => s.lkc.rxMain
  | .foot => s.lkc.rxFoot

/-- Set a link's receiver. -/
def setReceiver (l : Link) (r : Receiver) (s : State) : State :=
  match l with
  | .main => withLkc (fun k => { k with rxMain := r }) s
  | .foot => withLkc (fun k => { k with rxFoot := r }) s

/-- A frame error: the bytes gathered are discarded, the receiver returns to HUNT, and the counter goes up. -/
def rxError (l : Link) (s : State) : State := countEvent (ctrFrame l) (setReceiver l .hunt s)

/-- CHECK is in: a sum of 0 completes a valid frame, any other is a frame error. `bytes` holds the payload and CHECK. -/
def judgeFrame (l : Link) (len : Nat) (kind tag : Byte) (bytes : List Byte) (s : State) : State :=
  if frameSum ([b8 len, kind, tag] ++ bytes) = 0 then takeFrame kind ⟨l, tag, bytes.take len⟩ (setReceiver l .hunt s)
  else rxError l s

/-- A byte in HEADER: LEN, then KIND, then TAG. -/
def headerByte (l : Link) (held : List Byte) (v : Byte) (s : State) : State :=
  match held with
  | [] => if 248 < v.toNat then rxError l s else setReceiver l (.header [v]) s
  | [len] => setReceiver l (.header [len, v]) s
  | len :: kind :: _ => setReceiver l (.body len.toNat kind v []) s

/-- A link's receiver takes a byte (R188). -/
def takeByte (l : Link) (x : RxByte) (s : State) : State :=
  match receiver s l with
  | .hunt => if x.stop ∧ x.value = 0xA5 then setReceiver l (.header []) s else s
  | .header held => if x.stop then headerByte l held x.value s else rxError l s
  | .body len kind tag held =>
    if x.stop then
      let bytes := held ++ [x.value]
      if bytes.length = len + 1 then judgeFrame l len kind tag bytes s else setReceiver l (.body len kind tag bytes) s
    else rxError l s

/-- A link's receiver takes bytes one after another. -/
def takeBytes (l : Link) (bytes : List RxByte) (s : State) : State := bytes.foldl (fun s x => takeByte l x s) s

/-- FRAME_ERROR (R188): bytes that end in a frame error. -/
def execFrameError (l : Link) (bytes : List RxByte) (s : State) : Result := .next (takeBytes l bytes s)

/-- 2 ms pass without a byte: the gap timer of a receiver in HEADER or BODY expires. -/
def gapExpires (l : Link) (s : State) : State :=
  match receiver s l with
  | .hunt => s
  | _ => rxError l s

/-- GAP_TIMER_EXPIRY (R188): bytes, and then 2 ms without one. -/
def execGapTimerExpiry (l : Link) (bytes : List RxByte) (s : State) : Result := .next (gapExpires l (takeBytes l bytes s))

end Sys2Proof.Machine
end

