-- ==== Sys2Proof/Machine/LineMemory.lean ====
section
/-! DEFINITION. The commands of line memory and the tail set (chapter 4): all of them events the part gives itself. -/

namespace Sys2Proof.Machine

/-- TAIL_HOLD_EXPIRY (R73). -/
def execTailHoldExpiry (index : Nat) (s : State) : Result := .next (tailHoldOver index s)

/-- TAIL_DECAY_END (R73). -/
def execTailDecayEnd (index : Nat) (s : State) : Result := .next (tailDecayOver index s)

/-- REMNANT_FREED (R75). -/
def execRemnantFreed (place : Nat) (s : State) : Result := .next (remnantOver place s)

/-- SHORT_REQUEST_GRANT (R65). -/
def execShortRequestGrant (s : State) : Result := .next (shortGranted s)

/-- SHORT_REQUEST_CLAMP (R66). -/
def execShortRequestClamp (s : State) : Result := .next (shortClamped s)

/-- MARKED_TAIL_CUT (R74). -/
def execMarkedTailCut (s : State) : Result := .next (cutOldestMarked s)

/-- RELEASE_COMPLETION (R76). -/
def execReleaseCompletion (s : State) : Result := .next (releaseOver s)

end Sys2Proof.Machine
end

