-- ==== Sys2Proof/Machine/Resets.lean ====
section
/-! DEFINITION. The resets from outside (R151, R172) and the LOCK key line (R161). -/

namespace Sys2Proof.Machine

/-- POWER_ON_RESET (R172). -/
def execPowerOnReset (s : State) : Result := .next (resetAll s)

/-- PIN_RESET (R172). -/
def execPinReset (s : State) : Result := .next (resetAll s)

/-- LOCK_KEY_LINE_CHANGE (R161). -/
def execLockKeyLineChange (asserted : Bool) (s : State) : Result := .next (withPst (fun p => { p with lockKey := asserted }) s)

end Sys2Proof.Machine
end

