-- ==== Sys2Proof/Machine/Dispatch.lean ====
section
/-! DEFINITION. One arm for each command: a direct call of its meaning. -/

namespace Sys2Proof.Machine

/-- What a command does to the state, but for the queue. -/
def exec (i : Instr) (s : State) : Host.Outcome State Fault Refusal :=
  match i with
  | .powerOnReset => Sys2Proof.Machine.execPowerOnReset s
  | .pinReset => Sys2Proof.Machine.execPinReset s
  | .wordClockPeriod len xs => Sys2Proof.Machine.execWordClockPeriod len xs s
  | .noEdgeTimerExpiry => Sys2Proof.Machine.execNoEdgeTimerExpiry s
  | .clockRunningNotice => Sys2Proof.Machine.execClockRunningNotice s
  | .samplePeriod xs => Sys2Proof.Machine.execSamplePeriod xs s
  | .laneDipSwitchPoint dir k => Sys2Proof.Machine.execLaneDipSwitchPoint dir k s
  | .laneDipEnd dir k => Sys2Proof.Machine.execLaneDipEnd dir k s
  | .relayMuteCompletion => Sys2Proof.Machine.execRelayMuteCompletion s
  | .silentEntry k => Sys2Proof.Machine.execSilentEntry k s
  | .blockBoundary => Sys2Proof.Machine.execBlockBoundary s
  | .slotDipSwitchPoint bid n => Sys2Proof.Machine.execSlotDipSwitchPoint bid n s
  | .slotDipEnd bid n => Sys2Proof.Machine.execSlotDipEnd bid n s
  | .tableChangeBoundary r => Sys2Proof.Machine.execTableChangeBoundary r s
  | .gateClose bid n => Sys2Proof.Machine.execGateClose bid n s
  | .trailHoldExpiry bid n => Sys2Proof.Machine.execTrailHoldExpiry bid n s
  | .trailEnd bid n => Sys2Proof.Machine.execTrailEnd bid n s
  | .busMutedNotice => Sys2Proof.Machine.execBusMutedNotice s
  | .setParam f => Sys2Proof.Machine.execSetParam f s
  | .slotBypass f => Sys2Proof.Machine.execSlotBypass f s
  | .curveLoad f => Sys2Proof.Machine.execCurveLoad f s
  | .curveClear f => Sys2Proof.Machine.execCurveClear f s
  | .filterSetLoad f => Sys2Proof.Machine.execFilterSetLoad f s
  | .filterSetClear f => Sys2Proof.Machine.execFilterSetClear f s
  | .ctrlMap f => Sys2Proof.Machine.execCtrlMap f s
  | .pedal f => Sys2Proof.Machine.execPedal f s
  | .lane f => Sys2Proof.Machine.execLane f s
  | .tailHoldExpiry n => Sys2Proof.Machine.execTailHoldExpiry n s
  | .tailDecayEnd n => Sys2Proof.Machine.execTailDecayEnd n s
  | .remnantFreed n => Sys2Proof.Machine.execRemnantFreed n s
  | .shortRequestGrant => Sys2Proof.Machine.execShortRequestGrant s
  | .shortRequestClamp => Sys2Proof.Machine.execShortRequestClamp s
  | .markedTailCut => Sys2Proof.Machine.execMarkedTailCut s
  | .releaseCompletion => Sys2Proof.Machine.execReleaseCompletion s
  | .measurementComplete ch => Sys2Proof.Machine.execMeasurementComplete ch s
  | .measurementTimerExpiry ch => Sys2Proof.Machine.execMeasurementTimerExpiry ch s
  | .displayExpiry ch => Sys2Proof.Machine.execDisplayExpiry ch s
  | .tune f => Sys2Proof.Machine.execTune f s
  | .tunerRef f => Sys2Proof.Machine.execTunerRef f s
  | .tempo f => Sys2Proof.Machine.execTempo f s
  | .tap f => Sys2Proof.Machine.execTap f s
  | .midiClock => Sys2Proof.Machine.execMidiClock s
  | .followerMeasurement => Sys2Proof.Machine.execFollowerMeasurement s
  | .noClockTimerExpiry => Sys2Proof.Machine.execNoClockTimerExpiry s
  | .beatEvent => Sys2Proof.Machine.execBeatEvent s
  | .switchPress f => Sys2Proof.Machine.execSwitchPress f s
  | .switchRelease f => Sys2Proof.Machine.execSwitchRelease f s
  | .holdTimerExpiry k => Sys2Proof.Machine.execHoldTimerExpiry k s
  | .controlChange ch c v => Sys2Proof.Machine.execControlChange ch c v s
  | .programChange ch n => Sys2Proof.Machine.execProgramChange ch n s
  | .midiStatusByte x => Sys2Proof.Machine.execMidiStatusByte x s
  | .midiFrameError => Sys2Proof.Machine.execMidiFrameError s
  | .flags f => Sys2Proof.Machine.execFlags f s
  | .bind f => Sys2Proof.Machine.execBind f s
  | .readBinding f => Sys2Proof.Machine.execReadBinding f s
  | .recall f => Sys2Proof.Machine.execRecall f s
  | .scene f => Sys2Proof.Machine.execScene f s
  | .sceneApplication => Sys2Proof.Machine.execSceneApplication s
  | .sceneOnlyRecall => Sys2Proof.Machine.execSceneOnlyRecall s
  | .fadeStart => Sys2Proof.Machine.execFadeStart s
  | .swap => Sys2Proof.Machine.execSwap s
  | .midpoint => Sys2Proof.Machine.execMidpoint s
  | .fadeEnd => Sys2Proof.Machine.execFadeEnd s
  | .save f => Sys2Proof.Machine.execSave f s
  | .saveRecord f => Sys2Proof.Machine.execSaveRecord f s
  | .delete f => Sys2Proof.Machine.execDelete f s
  | .saveSettings f => Sys2Proof.Machine.execSaveSettings f s
  | .setLock f => Sys2Proof.Machine.execSetLock f s
  | .requestBegin => Sys2Proof.Machine.execRequestBegin s
  | .programStepComplete ok => Sys2Proof.Machine.execProgramStepComplete ok s
  | .flashReadComplete => Sys2Proof.Machine.execFlashReadComplete s
  | .eraseComplete => Sys2Proof.Machine.execEraseComplete s
  | .reclaimCopy => Sys2Proof.Machine.execReclaimCopy s
  | .reclaimErase => Sys2Proof.Machine.execReclaimErase s
  | .scanComplete failed => Sys2Proof.Machine.execScanComplete failed s
  | .readPreset f => Sys2Proof.Machine.execReadPreset f s
  | .listPresets f => Sys2Proof.Machine.execListPresets f s
  | .supplyFall => Sys2Proof.Machine.execSupplyFall s
  | .supplyRise => Sys2Proof.Machine.execSupplyRise s
  | .supplyDropBack => Sys2Proof.Machine.execSupplyDropBack s
  | .stabilityTimerExpiry => Sys2Proof.Machine.execStabilityTimerExpiry s
  | .windowSettleComplete => Sys2Proof.Machine.execWindowSettleComplete s
  | .bypass f => Sys2Proof.Machine.execBypass f s
  | .frameError l xs => Sys2Proof.Machine.execFrameError l xs s
  | .gapTimerExpiry l xs => Sys2Proof.Machine.execGapTimerExpiry l xs s
  | .unknownKind kind f => Sys2Proof.Machine.execUnknownKind kind f s
  | .frameSent l => Sys2Proof.Machine.execFrameSent l s
  | .editOwnerTake f => Sys2Proof.Machine.execEditOwnerTake f s
  | .editOwnerRelease f => Sys2Proof.Machine.execEditOwnerRelease f s
  | .footPermit f => Sys2Proof.Machine.execFootPermit f s
  | .subscribe f => Sys2Proof.Machine.execSubscribe f s
  | .footLinkTimerExpiry => Sys2Proof.Machine.execFootLinkTimerExpiry s
  | .setGlobal f => Sys2Proof.Machine.execSetGlobal f s
  | .counters f => Sys2Proof.Machine.execCounters f s
  | .sampleTimerExpiry => Sys2Proof.Machine.execSampleTimerExpiry s
  | .status f => Sys2Proof.Machine.execStatus f s
  | .ident f => Sys2Proof.Machine.execIdent f s
  | .restart f => Sys2Proof.Machine.execRestart f s
  | .restartEffect => Sys2Proof.Machine.execRestartEffect s
  | .lockKeyLineChange on => Sys2Proof.Machine.execLockKeyLineChange on s

end Sys2Proof.Machine
end

