-- ==== Sys2Proof/Safety.lean ====
section
/-! DEFINITION. The terms claims are stated in: what acceptance hands to a body, what a C-class value does to the ramps of a slot,
what a change of the tempo in use brings with it, and the conditions every step keeps. -/

namespace Sys2Proof.Machine

/-! ## Requests -/

/-- Where the reply to a frame goes: the entry that acceptance adds for it. -/
def destOf (f : Frame) (s : State) : Dest := (addEntry f (frameIn f.link s)).1

/-- The state a request's body starts from: the receiver is in HUNT, a foot frame has moved the foot link, and an entry has been
added to the link's reply queue (R188, R189, R193). -/
def arrived (f : Frame) (s : State) : State := (addEntry f (frameIn f.link s)).2

/-- The link's reply queue has room (R189 step 1). -/
def Room (l : Link) (s : State) : Prop := (io s l).entries.length < 16

/-- An edit or store request of a link passes steps 5 and 6 (R189). -/
def MayEdit (l : Link) (s : State) : Prop :=
  (l = .foot → s.lkc.footPermit = true) ∧ (s.lkc.owner = .none ∨ s.lkc.owner = ownerOf l)

/-- The KIND and the frame of a command that a request row makes (R189, R202). -/
def requestFrame : Instr → Option (Byte × Frame)
  | .recall f => some (0x01, f)
  | .scene f => some (0x02, f)
  | .switchPress f => some (0x03, f)
  | .switchRelease f => some (0x03, f)
  | .pedal f => some (0x04, f)
  | .tune f => some (0x05, f)
  | .tempo f => some (0x06, f)
  | .tap f => some (0x07, f)
  | .flags f => some (0x08, f)
  | .bypass f => some (0x09, f)
  | .setParam f => some (0x10, f)
  | .slotBypass f => some (0x11, f)
  | .curveLoad f => some (0x12, f)
  | .curveClear f => some (0x12, f)
  | .filterSetLoad f => some (0x13, f)
  | .filterSetClear f => some (0x13, f)
  | .lane f => some (0x14, f)
  | .bind f => some (0x15, f)
  | .ctrlMap f => some (0x16, f)
  | .tunerRef f => some (0x17, f)
  | .setGlobal f => some (0x18, f)
  | .save f => some (0x20, f)
  | .saveRecord f => some (0x21, f)
  | .delete f => some (0x22, f)
  | .saveSettings f => some (0x23, f)
  | .setLock f => some (0x24, f)
  | .readPreset f => some (0x30, f)
  | .readBinding f => some (0x31, f)
  | .status f => some (0x32, f)
  | .counters f => some (0x33, f)
  | .ident f => some (0x34, f)
  | .listPresets f => some (0x35, f)
  | .editOwnerTake f => some (0x40, f)
  | .editOwnerRelease f => some (0x40, f)
  | .subscribe f => some (0x41, f)
  | .footPermit f => some (0x42, f)
  | .restart f => some (0x43, f)
  | .unknownKind kind f => some (kind, f)
  | _ => none

/-! ## Slots -/

/-- What the value `x` of a C-class parameter does to the ramps of a slot whose region has `pages` pages: the ramp that holds the
parameter is restarted over `len` samples toward the quantity its kind holds, the time of a DELAY over 512 and only with sync 0, and the two
gains of a mix together while the slot is ENGAGED; a mix that comes otherwise is stored (R30, R33, R36, R41, R50). A length of 0 sets a
ramp at once (R32). -/
def Ramped (pages len : Nat) (sl y : Slot) (i : Nat) (x : Int) : Prop :=
  let toward := fun (r : Ramp) (n : Nat) (target : Int) =>
    ({ v := if n = 0 then target else r.v, target := target, count := n } : Ramp)
  let isMix := sl.kind = .mod ∧ i = 2 ∨ sl.kind = .delay ∧ i = 4 ∨ sl.kind = .reverb ∧ i = 1
  (sl.kind = .trim ∨ (sl.kind = .drive ∨ sl.kind = .amp ∨ sl.kind = .loop) ∧ i = 0 →
    y.voice = { sl.voice with a := toward sl.voice.a len (x * 32) }) ∧
  (sl.kind = .level ∨ sl.kind = .drive ∧ i = 2 ∨ sl.kind = .amp ∧ i = 3 ∨ (sl.kind = .cab ∨ sl.kind = .eq ∨ sl.kind = .loop) ∧ i = 1 →
    y.voice = { sl.voice with b := toward sl.voice.b len (x * 32) }) ∧
  ((sl.kind = .gate ∨ sl.kind = .mod) ∧ i = 0 → y.voice = { sl.voice with a := toward sl.voice.a len x }) ∧
  (sl.kind = .mod ∧ i = 1 → y.voice = { sl.voice with b := toward sl.voice.b len x }) ∧
  (sl.kind = .delay ∧ i = 3 → y.voice = { sl.voice with b := toward sl.voice.b len (x * 8) }) ∧
  (sl.kind = .reverb ∧ i = 0 → y.voice = { sl.voice with b := toward sl.voice.b len (4096 + x * 4) }) ∧
  (sl.kind = .delay ∧ i = 0 ∧ 0 < sl.run.length → y.voice =
    if sl.run.getD 1 0 = 0 then { sl.voice with a := toward sl.voice.a 512 (max 1 (min (1024 * (pages : Int) - 1) (x * 48))) }
    else sl.voice) ∧
  (isMix ∧ sl.bypass = .engaged ∧ i < sl.run.length → y.voice = { sl.voice with
    dry := toward sl.voice.dry len ((1023 - x) * 8), wet := toward sl.voice.wet len (x * 8) }) ∧
  (isMix ∧ sl.bypass ≠ .engaged → y.voice = sl.voice) ∧
  y.mixStored = if isMix ∧ sl.bypass ≠ .engaged then true else sl.mixStored

/-- A running selection of the slot names a model table that is ABSENT: the curve of a DRIVE, the curve or the tone set of an AMP, the
filter set of a CAB or an EQ (R37, R45). -/
def NamesAbsent (t : Tne) (sl : Slot) : Prop :=
  let noCurve := fun x : Int => (Mem.get {} t.curves x.toNat).current = none
  let noFilter := fun x : Int => (Mem.get {} t.filters x.toNat).current = none
  sl.kind = .drive ∧ noCurve (sl.run.getD 1 0) ∨ sl.kind = .amp ∧ (noCurve (sl.run.getD 1 0) ∨ noFilter (sl.run.getD 2 0)) ∨
  (sl.kind = .cab ∨ sl.kind = .eq) ∧ noFilter (sl.run.getD 0 0)

/-- The slot is to run as THRU: it names an ABSENT table, or is a MOD or DELAY with no pages or a REVERB with fewer than 10 (R37, R40, R41,
R42). -/
def RunsThru (t : Tne) (m : Lma) (sl : Slot) : Prop :=
  let pages := (regionPages m sl.voice.region).length
  NamesAbsent t sl ∨ (sl.kind = .mod ∨ sl.kind = .delay) ∧ pages = 0 ∨ sl.kind = .reverb ∧ pages < 10

/-- From `sl` to `y` the slot was asked to be bypassed (`off`) or engaged, by R50's table. That an engage from BYPASSED takes up over the same 256
samples a mix that was stored is deduced (log 23). -/
def BypassMoves (off : Bool) (sl y : Slot) : Prop :=
  let toward := fun (r : Ramp) (target : Int) => ({ v := r.v, target := target, count := 256 } : Ramp)
  let m := runMix sl
  let trails := sl.trail && sl.kind.spills
  (off = true → sl.bypass ≠ .engaged → y = sl) ∧
  (off = true → sl.bypass = .engaged → trails = false → y = { sl with bypass := .bypassed, engage := toward sl.engage 0 }) ∧
  (off = true → sl.bypass = .engaged → trails = true → y = { sl with
    bypass := .trailing, falling := false
    hold := (if sl.kind = .delay then (sl.run.getD 5 0).toNat * 48 else (sl.run.getD 2 0).toNat * 48)
    voice := { sl.voice with input := toward sl.voice.input 0, dry := toward sl.voice.dry 8192 } }) ∧
  (off = false → sl.bypass = .engaged → y = sl) ∧
  (off = false → sl.bypass = .bypassed → y = { sl with
    bypass := .engaged, mixStored := false, engage := toward sl.engage 8192
    voice := if sl.mixStored = true then { sl.voice with
      dry := toward sl.voice.dry ((1023 - m) * 8), wet := toward sl.voice.wet (m * 8) } else sl.voice }) ∧
  (off = false → sl.bypass = .trailing → y = { sl with
    bypass := .engaged, hold := 0, falling := false, mixStored := false
    voice := { sl.voice with
      input := toward sl.voice.input 8192, dry := toward sl.voice.dry ((1023 - m) * 8), wet := toward sl.voice.wet (m * 8) } })

/-! ## Scenes and the controller map -/

/-- Entry `q` of the controller map has a source with a value and finds parameter `j` of slot `i` of a chain: the slot is the entry's occurrence
of its kind. `x` is the value its ends give, not yet brought into range (R55 to R57). -/
def MapFinds (t : Tne) (slots : List Slot) (i q j : Nat) (sl : Slot) (x : Int) : Prop :=
  ∃ (e : MapEntry) (v : Nat), q < 8 ∧ Mem.get none t.ctrlMap q = some e ∧ Mem.get none t.sources e.source.key = some v ∧
    e.kind = sl.kind ∧ e.param = j ∧ e.occ = ((slots.take (i + 1)).filter (fun u => decide (u.kind = sl.kind))).length ∧
    x = e.min + (e.max - e.min) * v / 1023

/-- `x` is what a scene asks of parameter `j` of slot `i`, not yet brought into range: the value of its last override for it, and with none
that of the parameter set (R48, R51). -/
def SceneAsks (sc : Scene) (i j : Nat) (sl : Slot) (x : Int) : Prop :=
  let held := fun (o : Override) => o.slot = i ∧ o.param = j
  (∀ (before after : List Override) (o : Override), sc.overrides = before ++ o :: after → held o → (∀ u ∈ after, ¬held u) → x = o.value) ∧
  ((∀ o ∈ sc.overrides, ¬held o) → x = sl.params.getD j 0)

/-- From `sl`, slot `i` of a chain with these slots, to `y` a scene was applied. Its parameters take their scene values in the order of their indexes: a
C-class one that the controller map does not hold moves its ramp over the scene's length, a D-class one joins the pending changes where it differs
from the value pending (log 24), an S-class one is written. The slot is then bypassed or engaged as the scene asks (R49, R50, R51). -/
def SceneMoves (t : Tne) (m : Lma) (slots : List Slot) (sc : Scene) (i : Nat) (sl y : Slot) : Prop :=
  ∃ w : Nat → Slot, w 0 = sl ∧
    BypassMoves (if sc.bypass.getLsbD i then !sl.defBypass else sl.defBypass) (w sl.kind.params.length) y ∧
    ∀ (j : Nat) (cls : ParamClass) (least most x : Int), sl.kind.params[j]? = some (cls, least, most) → SceneAsks sc i j sl x →
      let v := max least (min most x)
      (cls = .continuous → (∃ q z, MapFinds t slots i q j sl z) → w (j + 1) = w j) ∧
      (cls = .continuous → (∀ q z, ¬MapFinds t slots i q j sl z) →
        w (j + 1) = { w j with run := (w j).run.set j v, voice := (w (j + 1)).voice, mixStored := (w (j + 1)).mixStored } ∧
        Ramped (regionPages m sl.voice.region).length sc.ramp (w j) (w (j + 1)) j v) ∧
      (cls = .discrete → w (j + 1) =
        if pendingValue (w j) j = v then w j else { w j with changes := (w j).changes ++ [.param j v] }) ∧
      (cls = .setting → w (j + 1) = { w j with run := (w j).run.set j v })

/-! ## Tempo -/

/-- The tempo and the beat length in use are those that the source and the follower choose (R101). -/
def InUse (m : Tmp) : Prop :=
  (m.midiSource = false → m.tempo = m.internal ∧ m.beat = (28800000 + m.internal / 2) / m.internal) ∧
  (m.midiSource = true → m.follower.state = .locked →
    m.tempo = max 400 (min 3000 ((28800000 + m.follower.b / 2) / m.follower.b)) ∧ m.beat = max 9600 (min 72000 m.follower.b)) ∧
  (m.midiSource = true → m.follower.state ≠ .locked → m.tempo = m.heldTempo ∧ m.beat = m.heldBeat)

/-- From `s` to `t` the tempo in use was brought into line. A changed beat length reaches every DELAY slot with sync 1..6 of the buffers that are
not EMPTY: the delay ramp goes over 512 samples toward the length of its division, clamped to its line (R110; toward 1 where it has no line: the
model's choice, log 85); tails and other slots stand. Posted are `told`, if there is such a report, and then TEMPO_VALUE if the tempo in use
changed, with where it came from (R112; that TEMPO_LOCK comes before TEMPO_VALUE is deduced, log 31). -/
def Paced (told : Option Report) (s t : State) : Prop :=
  let beat : Int := t.tmp.beat
  let division := fun c : Int =>
    if c = 1 then beat else if c = 2 then beat * 3 / 4 else if c = 3 then beat / 2 else if c = 4 then beat / 3
    else if c = 5 then beat / 4 else beat * 2
  let slot := fun sl : Slot =>
    let c := sl.run.getD 1 0
    if sl.kind = .delay ∧ 1 ≤ c ∧ c ≤ 6 ∧ sl.stub = false then
      let most := 1024 * ((regionPages s.lma sl.voice.region).length : Int) - 1
      { sl with voice := { sl.voice with a :=
        ({ v := sl.voice.a.v, target := max 1 (min most (division c)), count := 512 } : Ramp) } }
    else sl
  let buffer := fun b : Buffer =>
    if b.state = .empty then b else { b with chain := { b.chain with slots := b.chain.slots.map slot } }
  let source : TempoFrom :=
    if t.tmp.midiSource = false then .internal else if t.tmp.follower.state = .locked then .midi else .held
  let v := match told with | some r => post r s | none => s
  InUse t.tmp ∧
  t.tne = (if t.tmp.beat = s.tmp.beat then s.tne else { s.tne with bufA := buffer s.tne.bufA, bufB := buffer s.tne.bufB }) ∧
  t.lkc = (if t.tmp.tempo = s.tmp.tempo then v else post (.tempoValue t.tmp.tempo t.tmp.beat source) v).lkc

/-! ## Conditions that every step keeps -/

/-- The foot link is edit owner only while it is UP and permitted (R191, R192, R193). -/
def FootOwnerOk (s : State) : Prop := s.lkc.owner = .foot → s.lkc.footUp = true ∧ s.lkc.footPermit = true

/-- The run count of the foot link agrees with its state (R193). -/
def FootRunOk (s : State) : Prop :=
  (s.lkc.footUp = true → s.lkc.footTimer = true ∧ s.lkc.footRun = 3) ∧
  (s.lkc.footUp = false → s.lkc.footRun ≤ 2 ∧ (s.lkc.footTimer = false → s.lkc.footRun = 0))

/-- The bypass relay stands where the condition set puts it (R184, R185): in circuit with no condition, muting with MANUAL alone,
and out with some condition. -/
def RelayOk (a : Acd) : Prop :=
  match a.relay with
  | .circuit => a.conds.any = false
  | .muting => a.conds.manual = true ∧ a.conds.other = false
  | .out => a.conds.any = true

/-- The MANUAL condition is the manual bypass flag (R186). -/
def ManualOk (a : Acd) : Prop := a.conds.manual = a.manual

/-- Flash, a table of bytes by address, keeps its one canonical form. -/
def FlashOk (p : Pst) : Prop := Mem.Wf 0xFF p.flash

/-- The sector table keeps its one canonical form. -/
def SectorsOk (p : Pst) : Prop := Mem.Wf {} p.sectors

/-- The line pages: the free pool rises, and free pool and regions together hold each of the 256 pages exactly once (R61, R62). -/
def PagesOk (m : Lma) : Prop :=
  Mem.Wf none m.regions ∧ m.free.Pairwise (· < ·) ∧
  (m.free ++ m.regions.flatMap (fun e => match e.2 with | some r => r.pages | none => [])).Perm (List.range 256)

end Sys2Proof.Machine
end

