-- ==== Sys2Proof/WellFormed.lean ====
section
/-! DEFINITION. Which commands are well formed: what a row's operands may be. `exec` gives a meaning to every term; an ill-formed
one stands for nothing that the part can be given. -/

namespace Sys2Proof

/-- A frame's payload holds at most 248 bytes (R188). -/
def Frame.fits (f : Frame) : Bool := decide (f.payload.length ≤ 248)

/-- Payload byte `i` has a value: the rows that share a KIND are told apart by it (R202). -/
def Frame.spells (f : Frame) (i v : Nat) : Bool := f.fits && decide ((f.payload[i]?).map (·.toNat) = some v)

/-- One sample for each of the eight input lanes (R3). -/
def eightSamples (xs : List Sample24) : Bool := decide (xs.length = 8)

/-- A lane 1..8. -/
def laneOk (k : Nat) : Bool := decide (1 ≤ k ∧ k ≤ 8)

/-- A slot 0..11 of a chain (R47). -/
def slotOk (i : Nat) : Bool := decide (i < 12)

/-- A curve 0..15 or a filter set 0..31 (R45). -/
def tableOk : TableRef → Bool
  | .curve i => decide (i < 16)
  | .filterSet i => decide (i < 32)

/-- A tail index or a remnant place 0..3 (R69, R74). -/
def placeOk (i : Nat) : Bool := decide (i < 4)

/-- A switch 0..23 (R114). -/
def switchOk (k : Nat) : Bool := decide (k < 24)

/-- A MIDI channel 1..16. -/
def channelOk (ch : Nat) : Bool := decide (1 ≤ ch ∧ ch ≤ 16)

/-- A MIDI data byte 0..127. -/
def dataOk (v : Nat) : Bool := decide (v < 128)

/-- The request kinds' codes (R189). -/
def requestKinds : List Nat :=
  [0x01, 0x02, 0x03, 0x04, 0x05, 0x06, 0x07, 0x08, 0x09, 0x10, 0x11, 0x12, 0x13, 0x14, 0x15, 0x16, 0x17, 0x18] ++
  [0x20, 0x21, 0x22, 0x23, 0x24, 0x30, 0x31, 0x32, 0x33, 0x34, 0x35, 0x40, 0x41, 0x42, 0x43]

/-- A KIND that is no request kind (R189). -/
def unknownOk (kind : Byte) : Bool := !requestKinds.contains kind.toNat

/-- Is the command well formed? -/
def Instr.wellFormed : Instr → Bool
  | .powerOnReset => true
  | .pinReset => true
  | .wordClockPeriod len xs => decide (0 < len) && eightSamples xs
  | .noEdgeTimerExpiry => true
  | .clockRunningNotice => true
  | .samplePeriod xs => eightSamples xs
  | .laneDipSwitchPoint _ k => laneOk k
  | .laneDipEnd _ k => laneOk k
  | .relayMuteCompletion => true
  | .silentEntry k => laneOk k
  | .blockBoundary => true
  | .slotDipSwitchPoint _ i => slotOk i
  | .slotDipEnd _ i => slotOk i
  | .tableChangeBoundary r => tableOk r
  | .gateClose _ i => slotOk i
  | .trailHoldExpiry _ i => slotOk i
  | .trailEnd _ i => slotOk i
  | .busMutedNotice => true
  | .setParam f => f.fits
  | .slotBypass f => f.fits
  | .curveLoad f => f.spells 1 0
  | .curveClear f => f.spells 1 1
  | .filterSetLoad f => f.spells 1 0
  | .filterSetClear f => f.spells 1 1
  | .ctrlMap f => f.fits
  | .pedal f => f.fits
  | .lane f => f.fits
  | .tailHoldExpiry i => placeOk i
  | .tailDecayEnd i => placeOk i
  | .remnantFreed i => placeOk i
  | .shortRequestGrant => true
  | .shortRequestClamp => true
  | .markedTailCut => true
  | .releaseCompletion => true
  | .measurementComplete _ => true
  | .measurementTimerExpiry _ => true
  | .displayExpiry _ => true
  | .tune f => f.fits
  | .tunerRef f => f.fits
  | .tempo f => f.fits
  | .tap f => f.fits
  | .midiClock => true
  | .followerMeasurement => true
  | .noClockTimerExpiry => true
  | .beatEvent => true
  | .switchPress f => f.spells 1 0
  | .switchRelease f => f.spells 1 1
  | .holdTimerExpiry k => switchOk k
  | .controlChange ch c v => channelOk ch && dataOk c && dataOk v
  | .programChange ch n => channelOk ch && dataOk n
  | .midiStatusByte _ => true
  | .midiFrameError => true
  | .flags f => f.fits
  | .bind f => f.fits
  | .readBinding f => f.fits
  | .recall f => f.fits
  | .scene f => f.fits
  | .sceneApplication => true
  | .sceneOnlyRecall => true
  | .fadeStart => true
  | .swap => true
  | .midpoint => true
  | .fadeEnd => true
  | .save f => f.fits
  | .saveRecord f => f.fits
  | .delete f => f.fits
  | .saveSettings f => f.fits
  | .setLock f => f.fits
  | .requestBegin => true
  | .programStepComplete _ => true
  | .flashReadComplete => true
  | .eraseComplete => true
  | .reclaimCopy => true
  | .reclaimErase => true
  | .scanComplete _ => true
  | .readPreset f => f.fits
  | .listPresets f => f.fits
  | .supplyFall => true
  | .supplyRise => true
  | .supplyDropBack => true
  | .stabilityTimerExpiry => true
  | .windowSettleComplete => true
  | .bypass f => f.fits
  | .frameError _ bytes => decide (bytes ≠ [])
  | .gapTimerExpiry _ _ => true
  | .unknownKind kind f => unknownOk kind && f.fits
  | .frameSent _ => true
  | .editOwnerTake f => f.spells 0 0
  | .editOwnerRelease f => f.spells 0 1
  | .footPermit f => f.fits
  | .subscribe f => f.fits
  | .footLinkTimerExpiry => true
  | .setGlobal f => f.fits
  | .counters f => f.fits
  | .sampleTimerExpiry => true
  | .status f => f.fits
  | .ident f => f.fits
  | .restart f => f.fits
  | .restartEffect => true
  | .lockKeyLineChange _ => true

end Sys2Proof
end

