-- ==== Sys2Proof/Certificates/Slice0/Obligations.lean ====
section
/-! DEFINITION. The statements for the provers. Each says, of every state and every operand its hypotheses allow, what a command or an
operation does; `arrived f s` is the state a request's body starts from and `destOf f s` is where its reply goes. -/

section

open Sys2Proof Sys2Proof.Machine

/-! ## The machine -/

/-- A step takes the command at the front of the queue and runs it on the state with the rest of the queue; with nothing waiting the
timebase ticks (the tick is the model's choice, log 1). -/
def Obligations.StepTakesFrontCommand : Prop :=
  (∀ (c : Instr) (s : State), step { s with pending := c :: s.pending } = exec c s) ∧
  (∀ s : State, s.pending = [] → step s = .next { s with timebase := s.timebase + 1 })

/-- What reset leaves, as the rules of each chapter give it. -/
def Obligations.ResetLeavesRuleValues : Prop :=
  let s := State.reset
  s.aup.clock = .absent ∧ s.aup.settle = 0 ∧ s.tne.mute = { start := true } ∧ s.tne.muteRamp = ⟨0, 0, 0⟩ ∧
  s.tne.bufA.state = .empty ∧ s.tne.bufB.state = .empty ∧ s.lma.free.length = 256 ∧ s.lma.regions = [] ∧
  s.tun.ref = 4400 ∧ s.tun.window = 4 ∧ s.tun.mode = ⟨false, .follow, .mute, false⟩ ∧
  s.tmp.internal = 1200 ∧ s.tmp.beat = 24000 ∧ s.tmp.follower.state = .noClock ∧
  s.swc.flags = 0 ∧ s.swc.stack = [] ∧ s.swc.bank = 0 ∧ s.swc.holdTime = 600 ∧ s.swc.channel = none ∧
  s.rcu.state = .idle ∧ s.rcu.flight = none ∧ s.rcu.bootDue = true ∧ s.pst.scanning = true ∧ s.pst.queue = [] ∧
  s.acd.supplyGood = false ∧ s.acd.relay = .out ∧ s.acd.manual = false ∧
  s.lkc.owner = .none ∧ s.lkc.footPermit = false ∧ s.lkc.footUp = false ∧ s.lkc.main.subs = 0x3F ∧ s.lkc.foot.subs = 0x27

/-- The conditions the invariants name hold at reset. -/
def Obligations.ResetMeetsInvariants : Prop :=
  FootOwnerOk State.reset ∧ FootRunOk State.reset ∧ RelayOk State.reset.acd ∧ ManualOk State.reset.acd ∧ FlashOk State.reset.pst ∧
  SectorsOk State.reset.pst ∧ PagesOk State.reset.lma

/-! ## Invariants -/

/-- The foot link is never edit owner while it is DOWN or not permitted, and its run count agrees with its state: every step keeps
both (R191, R192, R193). -/
def Obligations.StepKeepsFootOwner : Prop :=
  ∀ s t : State, FootOwnerOk s → FootRunOk s → step s = .next t → FootOwnerOk t ∧ FootRunOk t

/-- The bypass relay stands where the condition set puts it, and MANUAL is the manual bypass flag: every step keeps both (R184, R185,
R186). -/
def Obligations.StepKeepsBypassRelay : Prop :=
  ∀ s t : State, RelayOk s.acd → ManualOk s.acd → step s = .next t → RelayOk t.acd ∧ ManualOk t.acd

/-- Flash and the sector table keep their one canonical form at every step. -/
def Obligations.StepKeepsFlashForm : Prop :=
  ∀ s t : State, step s = .next t → (FlashOk s.pst → FlashOk t.pst) ∧ (SectorsOk s.pst → SectorsOk t.pst)

/-- A reset by power or by the reset pin sets every block to its power-on state; flash keeps every byte but those of the operation it
tears: a torn program step only clears bits of its own bytes, and a torn erase, whether it was in progress or suspended, only sets bits of its own
sector (R172; which of those bits is free, log 3). The store is SCANNING with an empty queue. That the pin's reset does what power
does, that the commands waiting stay, that the timebase starts at 0 and that the stability timer runs with the supply above 11.4 V are the
model's choices (logs 18, 12 and 14). -/
def Obligations.ResetsKeepFlashBytes : Prop :=
  ∀ s : State, exec .pinReset s = exec .powerOnReset s ∧ ∃ t : State, exec .powerOnReset s = .next t ∧
    t.aup = {} ∧ t.tne = {} ∧ t.lma = {} ∧ t.tun = {} ∧ t.tmp = {} ∧ t.swc = {} ∧ t.rcu = {} ∧ t.lkc = {} ∧ t.timebase = 0 ∧
    t.pst = { scanning := true, flash := t.pst.flash, lockKey := s.pst.lockKey } ∧
    t.acd = { supply := s.acd.supply, stability := decide (s.acd.supply = .above) } ∧
    t.pending = s.pending ∧
    (∀ (reader : Reader) (d : DirEntry), s.pst.suspended = none → (s.pst.op = none ∨ s.pst.op = some (.read reader d)) →
      t.pst.flash = s.pst.flash) ∧
    (∀ (base : Nat) (data : List Byte), s.pst.op = some (.program base data) → ∀ a : Nat,
      (a < base ∨ base + data.length ≤ a → Mem.get 0xFF t.pst.flash a = Mem.get 0xFF s.pst.flash a) ∧
      Mem.get 0xFF t.pst.flash a &&& Mem.get 0xFF s.pst.flash a = Mem.get 0xFF t.pst.flash a) ∧
    (∀ (k : Nat) (reader : Reader) (d : DirEntry),
      (s.pst.op = some (.erase k) ∨ s.pst.suspended = some k ∧ (s.pst.op = none ∨ s.pst.op = some (.read reader d))) → ∀ a : Nat,
      (a / 4096 ≠ k → Mem.get 0xFF t.pst.flash a = Mem.get 0xFF s.pst.flash a) ∧
      (FlashOk s.pst → Mem.get 0xFF s.pst.flash a ||| Mem.get 0xFF t.pst.flash a = Mem.get 0xFF t.pst.flash a))

/-! ## Links -/

/-- Every request row is the arrival of a frame of its KIND, and a valid frame of any KIND is accepted by R189's steps, in their order. -/
def Obligations.FrameAcceptanceSteps : Prop :=
  (∀ (c : Instr) (kind : Byte) (f : Frame) (s : State), requestFrame c = some (kind, f) → exec c s = .next (takeFrame kind f s)) ∧
  ∀ (kind : Byte) (f : Frame) (s : State),
    (¬Room f.link s → takeFrame kind f s = countEvent (ctrFrame f.link) (frameIn f.link s)) ∧
    (Room f.link s → kindOfRequest kind.toNat = none →
      exec (.unknownKind kind f) s = .next (answerCode (some (destOf f s)) .unknownKind (arrived f s))) ∧
    (∀ (form : Form) (body : Frame → Dest → State → State), Room f.link s → kindOfRequest kind.toNat = some (form, body) →
      let refused := fun code => takeFrame kind f s = answerCode (some (destOf f s)) code (arrived f s)
      (form.fits f.payload = false → refused .badLength) ∧
      (form.fits f.payload = true → (kind = 0x42 ∨ kind = 0x43) → f.link = .foot → refused .notPermitted) ∧
      (form.fits f.payload = true → 0x10 ≤ kind.toNat → kind.toNat ≤ 0x24 → f.link = .foot → s.lkc.footPermit = false →
        refused .notPermitted) ∧
      (form.fits f.payload = true → 0x10 ≤ kind.toNat → kind.toNat ≤ 0x24 → (f.link = .foot → s.lkc.footPermit = true) →
        s.lkc.owner ≠ .none → s.lkc.owner ≠ ownerOf f.link → refused .notOwner) ∧
      (form.fits f.payload = true → (0x10 ≤ kind.toNat → kind.toNat ≤ 0x24 → MayEdit f.link s) →
        ((kind = 0x42 ∨ kind = 0x43) → f.link = .main) →
        takeFrame kind f s = body f (destOf f s) (arrived f s)))

/-- A frame that arrives changes nothing outside the Link Controller; its link's reply queue gains one entry, its receiver is in
HUNT, and a frame of the main link leaves the foot link as it stands. A valid frame from the foot link moves its state: two more frames after
the first, with the silence timer running, bring it UP with LINK_STATE on the main link (R188, R189, R193).
FRAME_ERROR and GAP_TIMER_EXPIRY: a bad CHECK, a LEN above 248, and, wherever in HEADER or BODY they fall, a missing stop bit or 2 ms
without a byte return the receiver to HUNT and give one event to the link's frame error counter. In HUNT a byte other than SYNC, or one without
its stop bit, is discarded with no count (R188). -/
def Obligations.FramesArriveOrFail : Prop :=
  ((∀ (f : Frame) (s : State),
     arrived f s = { s with lkc := (arrived f s).lkc } ∧
     destOf f s = ⟨f.link, (io s f.link).nextId⟩ ∧
     (io (arrived f s) f.link) = { io s f.link with
       entries := (io s f.link).entries ++ [{ id := (io s f.link).nextId, tag := f.tag }]
       nextId := (io s f.link).nextId + 1 } ∧
     receiver (arrived f s) f.link = .hunt ∧
     (f.link = .main → (arrived f s).lkc.foot = s.lkc.foot ∧ (arrived f s).lkc.footUp = s.lkc.footUp ∧
       (arrived f s).lkc.footRun = s.lkc.footRun ∧ (arrived f s).lkc.footTimer = s.lkc.footTimer)) ∧
   ∀ (f : Frame) (s : State), f.link = .foot →
     (s.lkc.footUp = true → (arrived f s).lkc.footUp = true ∧ (arrived f s).lkc.footTimer = true) ∧
     (s.lkc.footUp = false → s.lkc.footTimer = false →
       (arrived f s).lkc.footUp = false ∧ (arrived f s).lkc.footRun = 1 ∧ (arrived f s).lkc.footTimer = true) ∧
     (s.lkc.footUp = false → s.lkc.footTimer = true → s.lkc.footRun < 2 →
       (arrived f s).lkc.footUp = false ∧ (arrived f s).lkc.footRun = s.lkc.footRun + 1 ∧ (arrived f s).lkc.footTimer = true) ∧
     (s.lkc.footUp = false → s.lkc.footTimer = true → s.lkc.footRun = 2 →
       (arrived f s).lkc.footUp = true ∧ (arrived f s).lkc.footRun = 3 ∧
       (s.lkc.main.subscribed .system = true →
         (arrived f s).lkc.main = LinkIo.offer (.linkState true) s.lkc.main))) ∧
  ∀ (l : Link) (s : State), receiver s l = .hunt →
    let err := fun (t : State) => .next (countEvent (ctrFrame l) t)
    let ok := fun (x : Byte) => (⟨x, true⟩ : RxByte)
    (∀ (kind tag check : Byte) (p : List Byte), p.length ≤ 248 → frameSum ([b8 p.length, kind, tag] ++ p ++ [check]) ≠ 0 →
      exec (.frameError l ([ok 0xA5, ok (b8 p.length), ok kind, ok tag] ++ p.map ok ++ [ok check])) s = err s) ∧
    (∀ len : Byte, 248 < len.toNat → exec (.frameError l [ok 0xA5, ok len]) s = err s) ∧
    (∀ (held : List Byte) (x : Byte), held.length ≤ 2 → (held.headD 0).toNat ≤ 248 →
      exec (.frameError l (ok 0xA5 :: held.map ok ++ [⟨x, false⟩])) s = err s ∧
      exec (.gapTimerExpiry l (ok 0xA5 :: held.map ok)) s = err s) ∧
    (∀ (len kind tag x : Byte) (p : List Byte), len.toNat ≤ 248 → p.length ≤ len.toNat →
      exec (.frameError l ([ok 0xA5, ok len, ok kind, ok tag] ++ p.map ok ++ [⟨x, false⟩])) s = err s ∧
      exec (.gapTimerExpiry l ([ok 0xA5, ok len, ok kind, ok tag] ++ p.map ok)) s = err s) ∧
    (∀ x : Byte, x ≠ 0xA5 → exec (.gapTimerExpiry l [ok x]) s = .next s) ∧
    (∀ x : Byte, exec (.gapTimerExpiry l [⟨x, false⟩]) s = .next s)

/-- An answered request's entry becomes DONE with the reply; every other entry, the link's reports and drops, the other link and the rest of the
machine stand. A transmitter at work goes on; a free one begins to send the entry that became DONE earliest, which is this one where no other was
DONE (R190). That it begins in the answering step itself is the model's choice (log 32). A transmitter that finishes a frame: the second frame of
a long reply follows its first, and a sent reply leaves the queue. After the last frame of a reply and after a report alike, the reply that became
DONE earliest goes next, before the oldest report; with no reply DONE the oldest report goes, the last one of a queue with drops being followed by
REPORTS_DROPPED; with neither the transmitter is free. Nothing else changes, but that the reply of a RESTART makes it due (R190, R194, R199). The
frame being sent is SYNC, LEN, KIND, TAG, payload and a CHECK that makes the sum 0: a reply's payload is the result code's value, the notes, the
part byte and at most 245 data bytes, and the two frames of a long reply carry its data in order; a report goes with TAG 0 and its code,
TAP_IGNORED with nothing after it (R189, R200, R103; the data bytes of a layout the manual does not give are free, log 4; the part byte's other
bits by log 16). -/
def Obligations.RepliesAndFramesGoOut : Prop :=
  (∀ (d : Dest) (code : Code) (notes : Byte) (data : ReplyData) (s : State) (e : ReplyEntry),
     e ∈ (io s d.link).entries → e.id = d.id → e.reply = none →
     let t := answer (some d) code notes data s
     let q := io s d.link
     let done : Reply := ⟨q.nextSeq, code, notes, data⟩
     let entries := q.entries.map (fun x => if x.id = d.id ∧ x.reply = none then { x with reply := some done } else x)
     let new : LinkIo := { q with nextSeq := q.nextSeq + 1, entries := entries, tx := (io t d.link).tx }
     t = { s with lkc := (match d.link with | .main => { s.lkc with main := new } | .foot => { s.lkc with foot := new }) } ∧
     { e with reply := some done } ∈ (io t d.link).entries ∧
     (q.tx ≠ none → (io t d.link).tx = q.tx) ∧
     (q.tx = none → ∃ (x : ReplyEntry) (p : Reply), x ∈ entries ∧ x.reply = some p ∧ (io t d.link).tx = some (.reply x.id p.data.long) ∧
       ∀ (y : ReplyEntry) (p' : Reply), y ∈ entries → y.reply = some p' → p.seq ≤ p'.seq) ∧
     (q.tx = none → (∀ x ∈ q.entries, x.reply = none) → (∀ x ∈ q.entries, x.id = d.id → x = e) →
       (io t d.link).tx = some (.reply d.id data.long))) ∧
  (∀ (q : LinkIo) (bytes : List Byte), q.sending = some bytes → ∃ (kind tag check : Byte) (payload : List Byte),
    bytes = [0xA5, b8 payload.length, kind, tag] ++ payload ++ [check] ∧ payload.length ≤ 248 ∧ frameSum (bytes.drop 1) = 0 ∧
    (∀ r : Report, q.tx = some (.report r) → kind = 0x81 ∧ tag = 0 ∧ payload.head? = some r.code) ∧
    (q.tx = some (.report .tapIgnored) → payload = [0x22]) ∧
    (∀ (id : Nat) (more : Bool), q.tx = some (.reply id more) → kind = 0x80 ∧ ∃ (e : ReplyEntry) (p : Reply), e ∈ q.entries ∧
      e.id = id ∧ e.reply = some p ∧ tag = e.tag ∧ payload.take 3 = [p.code.value, p.notes, if more then 0x80 else 0] ∧
      payload.drop 3 = (if more then p.data.layout.take 245 else if p.data.long then p.data.layout.drop 245 else p.data.layout))) ∧
  (∀ p : Reply, p.data.long = true → (p.payload true).length = 248 ∧ (p.payload true).drop 3 ++ (p.payload false).drop 3 = p.data.layout) ∧
  ∀ (l : Link) (s : State),
    let takes := fun q q' : LinkIo =>
      ((∃ e ∈ q.entries, e.reply ≠ none) → ∃ (e : ReplyEntry) (p : Reply), e ∈ q.entries ∧ e.reply = some p ∧
        q' = { q with tx := some (.reply e.id p.data.long) } ∧
        ∀ (x : ReplyEntry) (p' : Reply), x ∈ q.entries → x.reply = some p' → p.seq ≤ p'.seq) ∧
      ((∀ e ∈ q.entries, e.reply = none) →
        (q.reports = [] → q' = q) ∧
        (∀ r : Report, q.reports = [r] → q.drops = 0 → q' = { q with tx := some (.report r), reports := [] }) ∧
        (∀ r : Report, q.reports = [r] → q.drops ≠ 0 →
          q' = { q with tx := some (.report r), reports := [.reportsDropped q.drops], drops := 0 }) ∧
        (∀ (r₁ r₂ : Report) (rest : List Report), q.reports = r₁ :: r₂ :: rest →
          q' = { q with tx := some (.report r₁), reports := r₂ :: rest }))
    (∀ id : Nat, (io s l).tx = some (.reply id true) →
      exec (.frameSent l) s = .next (modIo l (fun q => { q with tx := some (.reply id false) }) s)) ∧
    (∀ id : Nat, (io s l).tx = some (.reply id false) → ∃ (t : State) (q' : LinkIo), exec (.frameSent l) s = .next t ∧
      t = (let v := modIo l (fun _ => q') s
           { v with lkc := { v.lkc with restartDue :=
               s.lkc.restartDue + (if (io s l).entries.any (fun e => decide (e.id = id) && e.restart) then 1 else 0) } }) ∧
      takes { io s l with tx := none, entries := (io s l).entries.filter (fun e => e.id ≠ id) } q') ∧
    (∀ r : Report, (io s l).tx = some (.report r) → ∃ q' : LinkIo,
      exec (.frameSent l) s = .next (modIo l (fun _ => q') s) ∧ takes { io s l with tx := none } q') ∧
    ((io s l).tx = none → exec (.frameSent l) s = .next s)

/-- TAKE and RELEASE by R191's table: the owner after it, its report, and the refusals. FOOT_PERMIT sets the permission; turning it off under a FOOT
owner makes the owner NONE with OWNER (PERMIT_OFF) on both links; any other value is BAD_FIELD (R192). The foot silence timer expires: DOWN, run
count 0, timer stopped; an UP link posts LINK_STATE (DOWN) on the main link, loses ownership and gives its synthetic releases (R193). That a RELEASE
of the foot link posts OWNER on the main link alone is deduced (log 10), and so is the owner that a refusal carries (log 37); that a report is
posted before the reply is the model's choice (log 61). -/
def Obligations.EditOwnershipMoves : Prop :=
  ((∀ (f : Frame) (s : State), Room f.link s → f.payload = [0] →
     let d := destOf f s
     let u := arrived f s
     let owned := fun (o : EditOwner) => ({ u with lkc := { u.lkc with owner := o } } : State)
     let ok := fun (t : State) => exec (.editOwnerTake f) s = .next (answer (some d) .ok 0 (.owner t.lkc.owner) t)
     let no := fun (c : Code) => exec (.editOwnerTake f) s = .next (answer (some d) c 0 (.owner u.lkc.owner) u)
     (f.link = .main →
       (s.lkc.owner = .none → ok (postIf .main (.owner .main .take) (owned .main))) ∧
       (s.lkc.owner = .main → ok u) ∧
       (s.lkc.owner = .foot → ok (postOn .foot (.owner .main .displaced) (postIf .main (.owner .main .displaced) (owned .main))))) ∧
     (f.link = .foot →
       (s.lkc.footPermit = false ∨ u.lkc.footUp = false → no .notPermitted) ∧
       (s.lkc.footPermit = true → u.lkc.footUp = true →
         (s.lkc.owner = .none → ok (postIf .main (.owner .foot .take) (owned .foot))) ∧
         (s.lkc.owner = .main → no .notOwner) ∧ (s.lkc.owner = .foot → ok u)))) ∧
   ∀ (f : Frame) (s : State), Room f.link s → f.payload = [1] →
     let d := destOf f s
     let u := arrived f s
     (s.lkc.owner = ownerOf f.link → exec (.editOwnerRelease f) s =
       .next (answer (some d) .ok 0 (.owner .none)
         (postIf .main (.owner .none .release) { u with lkc := { u.lkc with owner := .none } }))) ∧
     (s.lkc.owner ≠ ownerOf f.link → exec (.editOwnerRelease f) s = .next (answer (some d) .notOwner 0 (.owner s.lkc.owner) u))) ∧
  (∀ (f : Frame) (s : State) (x : Byte), f.link = .main → Room .main s → f.payload = [x] →
     let d := destOf f s
     let u := arrived f s
     let set := fun (on : Bool) => ({ u with lkc := { u.lkc with footPermit := on } } : State)
     (x = 1 → exec (.footPermit f) s = .next (answer (some d) .ok 0 (.permit true s.lkc.owner) (set true))) ∧
     (x = 0 → s.lkc.owner ≠ .foot → exec (.footPermit f) s = .next (answer (some d) .ok 0 (.permit false s.lkc.owner) (set false))) ∧
     (x = 0 → s.lkc.owner = .foot → exec (.footPermit f) s =
       .next (answer (some d) .ok 0 (.permit false .none)
         (postOn .foot (.owner .none .permitOff) (postIf .main (.owner .none .permitOff)
           { set false with lkc := { (set false).lkc with owner := .none } })))) ∧
     (1 < x.toNat → exec (.footPermit f) s = .next (answerCode (some d) .badField u))) ∧
  (∀ s : State, s.lkc.footTimer = true →
     let down : State := { s with lkc := { s.lkc with footUp := false, footRun := 0, footTimer := false } }
     let told := postIf .main (.linkState false) down
     (s.lkc.footUp = false → exec .footLinkTimerExpiry s = .next down) ∧
     (s.lkc.footUp = true → s.lkc.owner ≠ .foot → exec .footLinkTimerExpiry s = .next (syntheticReleases told)) ∧
     (s.lkc.footUp = true → s.lkc.owner = .foot → exec .footLinkTimerExpiry s =
       .next (syntheticReleases (postOn .foot (.owner .none .linkDown) (postIf .main (.owner .none .linkDown)
         { told with lkc := { told.lkc with owner := .none } })))))

/-- STATUS answers at once and changes nothing else: each section with what its chapter says STATUS shows, field by field, and a section above 9
is BAD_FIELD (R47, R58, R59, R99, R112, R114, R126, R131, R132, R133, R156, R159, R161, R169, R187, R197). The bytes of the data are free (log 4),
an EMPTY buffer, which holds the default chain record, shows preset number 0 and generation 0 (log 83), and the sector table that STORE shows
stays empty until the scan completes (log 14): these are the model's choices. SUBSCRIBE, IDENT and RESTART: the subscription set is replaced and
reported; IDENT gives the part's codes and sizes; a RESTART of the main link is answered OK and marked to take effect when its reply has been sent
(R194, R197, R199). -/
def Obligations.LinkRequestsAnswer : Prop :=
  (∀ (f : Frame) (s : State), Room f.link s →
    let d := destOf f s
    let u := arrived f s
    (∀ x : Byte, f.payload = [x] → x.toNat < 64 → exec (.subscribe f) s =
      .next (answer (some d) .ok 0 (.classes x) (modIo f.link (fun q => { q with subs := x }) u))) ∧
    (∀ x : Byte, f.payload = [x] → 64 ≤ x.toNat → exec (.subscribe f) s = .next (answerCode (some d) .badField u)) ∧
    (f.payload = [] → exec (.ident f) s = .next (answer (some d) .ok 0 (.ident 0x41 6140 2 8 8 256 256) u)) ∧
    (f.payload = [] → f.link = .foot → exec (.restart f) s = .next (answerCode (some d) .notPermitted u)) ∧
    (f.payload = [] → f.link = .main → exec (.restart f) s =
      .next (answer (some d) .ok 0 .none
        (modIo .main (fun q => { q with entries := q.entries.map (fun e => if e.id = d.id then { e with restart := true } else e) }) u)))) ∧
  ∀ (f : Frame) (s : State) (x : Byte), Room f.link s → f.payload = [x] →
    let u := arrived f s
    let reply := fun (data : StatusData) => exec (.status f) s = .next (answer (some (destOf f s)) .ok 0 (.status data) u)
    (x.toNat ≤ 9 → ∃ data : StatusData, statusOf u x.toNat = some data ∧ reply data) ∧
    (x = 0 → reply (.audio s.aup.clock ([1, 2, 3, 4, 5, 6, 7, 8].map (fun k => (inLane s k).silence.silent)))) ∧
    (let shown := fun q : Buffer => (q.state, q.chain.preset, q.chain.gen)
     let engine := fun scene edited slots => reply (.engine [shown s.tne.bufA, shown s.tne.bufB] scene edited slots
       s.tne.mute s.tne.muteRamp.v s.tne.load)
     (x = 1 → (∀ bid : BufId, (buf s bid).state ≠ .active) → engine none none []) ∧
     (∀ bid : BufId, x = 1 → (buf s bid).state = .active → (∀ other : BufId, other ≠ bid → (buf s other).state ≠ .active) →
       engine (some (buf s bid).chain.scene) (some (buf s bid).chain.edited)
         ((buf s bid).chain.slots.map (fun sl => ⟨sl.kind, sl.bypass, sl.thru⟩)))) ∧
    (x = 2 → reply (.tails s.lma.free.length (s.lma.requests.map (fun l => (l.head?).map PageReq.pages))
      (s.tne.tails.map (fun tl => ⟨tl.index, tl.kind, tl.preset, tl.phase, tl.marked, tl.hold / 48⟩)) (remnantList s.tne).length)) ∧
    (let tuner := fun ch => reply (.tuner ⟨s.tun.t1.lock, s.tun.t1.display, (inLane s 1).silence.silent⟩
       ⟨s.tun.t2.lock, s.tun.t2.display, (inLane s 2).silence.silent⟩ s.tun.ref s.tun.window s.tun.mode ch)
     (x = 3 → s.tun.mode.channel = .t1 → tuner .t1) ∧ (x = 3 → s.tun.mode.channel = .t2 → tuner .t2) ∧
     (x = 3 → s.tun.mode.channel = .follow → (∀ bid : BufId, (buf s bid).state ≠ .active) → tuner .t1) ∧
     (∀ bid : BufId, x = 3 → s.tun.mode.channel = .follow → (buf s bid).state = .active →
       (∀ other : BufId, other ≠ bid → (buf s other).state ≠ .active) →
       tuner (if (buf s bid).chain.input = .lane2 then .t2 else .t1))) ∧
    (x = 4 → reply (.tempo s.tmp.internal s.tmp.midiSource s.tmp.presetSets s.tmp.tempo s.tmp.beat s.tmp.heldTempo s.tmp.heldBeat
      (if s.tmp.midiSource = false then .internal else if s.tmp.follower.state = .locked then .midi else .held) s.tmp.intervals
      s.tmp.follower.state s.tmp.follower.b (s.tmp.follower.history.count true) s.tmp.beatCount)) ∧
    (x = 5 → reply (.switch ((List.range 24).map (fun k =>
      let e := Mem.get {} s.swc.switches k
      ⟨e, if e.down then e.pressedAt.map (fun t => s.timebase / 1000 - t) else none⟩)) s.swc.flags s.swc.bank s.swc.bankSelect)) ∧
    (x = 6 → reply (.recall s.rcu.state (s.rcu.flight.map (fun r => (r.preset, r.scene))) s.rcu.pending s.rcu.ident)) ∧
    (x = 7 → reply (.store (64 - (s.pst.sectors.filter (fun e => e.2.state ≠ .erased)).length)
      ((s.pst.sectors.find? (fun e => e.2.state = .opened)).map (fun e => (e.1, e.2.next)))
      (s.pst.sectors.map (·.2.live)).sum (s.pst.sectors.map (·.2.dead)).sum
      s.pst.queue.length (s.pst.queue.head?.map StoreReq.op) s.pst.lock s.pst.settingsLock s.pst.lockKey
      (s.pst.reclaim.map (fun r => (r.victim, s.pst.dir.countP (fun e => e.2.any (fun d => d.sector = r.victim))))))) ∧
    (x = 8 → reply (.accessory s.acd.requested s.acd.switched s.acd.drive
      (s.acd.window.map (fun w => (w.phase, w.pending, w.restoration))) s.acd.next s.acd.supplyGood
      (s.acd.relay = .circuit ∨ s.acd.relay = .muting) s.acd.relay s.acd.conds s.acd.manual)) ∧
    (x = 9 → reply (.links s.lkc.owner s.lkc.footPermit u.lkc.footUp u.lkc.footRun
      ⟨s.lkc.main.subs, u.lkc.main.entries.length, u.lkc.main.reports.length, u.lkc.main.drops, s.lkc.stageMain⟩
      ⟨s.lkc.foot.subs, u.lkc.foot.entries.length, s.lkc.foot.reports.length, s.lkc.foot.drops, s.lkc.stageFoot⟩ s.lkc.sampleMode)) ∧
    (9 < x.toNat → exec (.status f) s = .next (answerCode (some (destOf f s)) .badField u))

/-- An event adds 1 to its counter; one that finds 65,535 makes it 0 and offers COUNTER_OVERFLOW, naming it, to each link that subscribes to
LEVEL; every other counter stays, and nothing else changes. The 1 s
expiry of sample mode copies the live values to the snapshot and zeroes them. COUNTERS answers with the snapshot in sample mode and with
the live counters otherwise, and a read-and-clear zeroes the set it read (R195). -/
def Obligations.CounterBankCounts : Prop :=
  (∀ (i j : Nat) (s : State), Mem.get 0 (countEvent i s).lkc.counters j =
    if j = i then (if Mem.get 0 s.lkc.counters i < 65535 then Mem.get 0 s.lkc.counters i + 1 else 0)
    else Mem.get 0 s.lkc.counters j) ∧
  (∀ (i : Nat) (s : State) (l : Link),
    let wraps := 65535 ≤ Mem.get 0 s.lkc.counters i
    io (countEvent i s) l =
      (if wraps ∧ (io s l).subs.getLsbD 3 = true then LinkIo.offer (.counterOverflow i) (io s l) else io s l) ∧
    countEvent i s = { s with lkc := { s.lkc with
      counters := (countEvent i s).lkc.counters, main := io (countEvent i s) .main, foot := io (countEvent i s) .foot } }) ∧
  (∀ s : State, s.lkc.sampleMode = true → exec .sampleTimerExpiry s =
    .next { s with lkc := { s.lkc with snapshot := s.lkc.counters, counters := [] } }) ∧
  (∀ s : State, s.lkc.sampleMode = false → exec .sampleTimerExpiry s = .next s) ∧
  ∀ (f : Frame) (s : State) (x : Byte), Room f.link s → f.payload = [x] →
    let d := destOf f s
    let u := arrived f s
    let reply := fun (set : Mem Nat) (t : State) => exec (.counters f) s =
      .next (answer (some d) .ok 0 (.counters s.lkc.sampleMode ((List.range 22).map (Mem.get 0 set))) t)
    (x = 0 → reply (if s.lkc.sampleMode then s.lkc.snapshot else s.lkc.counters) u) ∧
    (x = 1 → s.lkc.sampleMode = true → reply s.lkc.snapshot { u with lkc := { u.lkc with snapshot := [] } }) ∧
    (x = 1 → s.lkc.sampleMode = false → reply s.lkc.counters { u with lkc := { u.lkc with counters := [] } }) ∧
    (1 < x.toNat → exec (.counters f) s = .next (answerCode (some d) .badField u))

/-- RESTART takes effect: the Link Controller drops its stagings and the owner and keeps its counters, foot permission, sample mode, foot link
state, receivers, subscriptions and reply queues, and empties both report queues with their drop counts. Then the recall in flight, its joined
SCENE request, the recall in the pending slot and the requests waiting for a block boundary are answered SUPERSEDED where they came from a link,
and the reports are those of a changed tempo in use and of a bypass relay that drops out. Tune mode ends; flags, stack, bank and held switches are
cleared; tails and line memory are freed; both buffers are EMPTY; START joins the mute set with the bus at 0; the relay sets stand. With the store
SCANNING the boot recall is due and waits for the scan. With the store past its scan it starts at once, for the boot preset of the GLOBALS record:
its record is read where the directory has it, and else the empty chain is READY in buffer A and fades in at the next block boundary (R149, R151,
R199 and the RESTART columns). That the boot preset stands at offset 200 of that record is deduced: R155 lists the settings of GLOBALS and gives
no offsets (log 6). That a record too short to hold that byte gives preset 0 (log 78), and the order of these answers and reports beyond R151's
(log 31), are the model's choice. -/
def Obligations.RestartEffectClears : Prop :=
  let owed := fun (o : Option Recall) => match o with
    | none => []
    | some r => [r.dest, r.joined.bind (·.dest)]
  let held := fun (i : BoundaryItem) => match i with
    | .scene _ _ dest => [dest]
    | .sceneOnly r => owed (some r)
  ∀ s : State, 0 < s.lkc.restartDue → ∃ t : State, exec .restartEffect s = .next t ∧
    (let emptied := fun q : LinkIo => { q with reports := [], drops := 0 }
     let cut : State := { s with lkc := { s.lkc with
       restartDue := s.lkc.restartDue - 1, owner := .none, stageMain := none, stageFoot := none
       main := emptied s.lkc.main, foot := emptied s.lkc.foot } }
     let answered := (owed s.rcu.flight ++ owed s.rcu.pending ++ (s.rcu.waiting.map held).flatten).foldl
       (fun u d => answerCode d .superseded u) cut
     let timed := if t.tmp.tempo = s.tmp.tempo then answered else
       post (.tempoValue t.tmp.tempo t.tmp.beat (if s.tmp.midiSource then .held else .internal)) answered
     let told := if s.acd.relay = .out then timed else
       post (.bypassState false .out { s.acd.conds with starting := true } s.acd.manual) timed
     t.lkc = told.lkc ∧ t.acd.relay = .out ∧ t.rcu.waiting = []) ∧
    t.lkc.main.subs = s.lkc.main.subs ∧ t.lkc.foot.subs = s.lkc.foot.subs ∧
    t.lkc.restartDue = s.lkc.restartDue - 1 ∧ t.lkc.owner = .none ∧ t.lkc.stageMain = none ∧ t.lkc.stageFoot = none ∧
    t.lkc.counters = s.lkc.counters ∧ t.lkc.footPermit = s.lkc.footPermit ∧ t.lkc.sampleMode = s.lkc.sampleMode ∧
    t.lkc.footUp = s.lkc.footUp ∧ t.lkc.footRun = s.lkc.footRun ∧ t.lkc.rxMain = s.lkc.rxMain ∧ t.lkc.rxFoot = s.lkc.rxFoot ∧
    t.tun.mode = { s.tun.mode with on := false } ∧ t.tun.ref = s.tun.ref ∧ t.tun.window = s.tun.window ∧
    t.tmp.internal = 1200 ∧ t.tmp.intervals = [] ∧ t.tmp.sampleNo = 0 ∧ t.tmp.midiSource = s.tmp.midiSource ∧
    t.swc.flags = 0 ∧ t.swc.stack = [] ∧ t.swc.bank = 0 ∧ t.swc.switches = [] ∧ t.swc.bindings = s.swc.bindings ∧
    t.lma.free = List.range 256 ∧ t.lma.regions = [] ∧ t.tne.tails = [] ∧ t.tne.remnants = [] ∧
    t.tne.bufB.state = .empty ∧ t.tne.mute.start = true ∧ t.tne.muteRamp = Ramp.at 0 ∧
    t.rcu.ident = {} ∧ t.rcu.pending = none ∧
    t.acd.conds.starting = true ∧ t.acd.requested = s.acd.requested ∧ t.acd.switched = s.acd.switched ∧
    (s.pst.scanning = true → t.rcu.bootDue = true ∧ t.rcu.state = .idle ∧ t.rcu.flight = none ∧ t.tne.bufA.state = .empty ∧ t.pst = s.pst) ∧
    (s.pst.scanning = false →
      let boot := match entry s.pst 256 with
        | none => 0
        | some d => if d.len ≤ 200 then 0 else (Mem.get 0xFF s.pst.flash (4096 * d.sector + d.off + 200)).toNat
      t.rcu.bootDue = false ∧
      (entry s.pst boot = none → t.rcu.state = .loading ∧ t.rcu.fadeDue = true ∧ t.rcu.build = .a ∧
        t.tne.bufA = { state := .ready, chain := { preset := boot } } ∧ t.pst = s.pst) ∧
      (∀ e : DirEntry, entry s.pst boot = some e → s.pst.op = none → s.pst.reads = [] →
        t.rcu.state = .fetching ∧ t.tne.bufA.state = .empty ∧
        t.rcu.flight = some { preset := boot, scene := 0, quant := some false, origin := .boot, boot := true } ∧
        t.pst = { s.pst with op := some (.read (.recall (s.rcu.readNo + 1)) e) }))

/-! ## Accessory Driver -/

/-- The relay supply monitor: below 10.8 V a GOOD monitor enters LOW with the drive OFF and SUPPLY_LOW begun, so that no loop relay is energized
and every amp line is open; above 11.4 V a LOW monitor starts its stability timer; falling back stops it; its expiry enters GOOD and asks for a
restoration: with no window a window is started for it, a window in DOWN takes its flag, and in SETTLE or UP it goes to the next set (R176, R182,
R183). Each change of the monitor posts SUPPLY_STATE, and then BYPASS_STATE where the bypass relay moves: it drops out as SUPPLY_LOW begins,
unless it is out, and from out it comes back into circuit, BYPASS leaving the bus mute set, where SUPPLY_LOW was the last condition (R185, R187).
That the reports come in this order is deduced (log 31); that a window starts with settle count 0 is the model's choice (log 84). -/
def Obligations.SupplyMonitorMoves : Prop :=
  ∀ s : State,
    let up := { s.acd.conds with supplyLow := false }
    let back := fun t : State =>
      (s.acd.relay = .out → up.any = true → t.acd.relay = .out ∧ t.tne = s.tne ∧ t.lkc = (post (.supplyState true) s).lkc) ∧
      (s.acd.relay = .out → up.any = false → t.acd.relay = .circuit ∧ t.tne.mute = { s.tne.mute with bypass := false } ∧
        t.tne = { s.tne with mute := t.tne.mute, muteRamp := t.tne.muteRamp, busNotice := t.tne.busNotice } ∧
        t.lkc = (post (.bypassState true .circuit up s.acd.manual) (post (.supplyState true) s)).lkc)
    (s.acd.supply ≠ .below → s.acd.supplyGood = false →
      exec .supplyFall s = .next { s with acd := { s.acd with supply := .below, stability := false } }) ∧
    (s.acd.supply ≠ .below → s.acd.supplyGood = true → ∃ t : State, exec .supplyFall s = .next t ∧
      t.acd.supplyGood = false ∧ t.acd.drive = false ∧ t.acd.conds = { s.acd.conds with supplyLow := true } ∧
      t.acd.relay = .out ∧ t.acd.window = s.acd.window ∧ t.acd.switched = s.acd.switched ∧
      t.acd.loopLines = 0 ∧ t.acd.ampLines = 0 ∧ t = { s with acd := t.acd, lkc := t.lkc } ∧
      (s.acd.relay = .out → t.lkc = (post (.supplyState false) s).lkc) ∧
      (s.acd.relay ≠ .out → t.lkc =
        (post (.bypassState false .out { s.acd.conds with supplyLow := true } s.acd.manual) (post (.supplyState false) s)).lkc)) ∧
    (s.acd.supply ≠ .above →
      exec .supplyRise s = .next { s with acd := { s.acd with supply := .above, stability := !s.acd.supplyGood } }) ∧
    (s.acd.supply = .above →
      exec .supplyDropBack s = .next { s with acd := { s.acd with supply := .between, stability := false } }) ∧
    (s.acd.stability = true → s.acd.window = none → ∃ t : State, exec .stabilityTimerExpiry s = .next t ∧
      t.acd.supplyGood = true ∧ t.acd.stability = false ∧ t.acd.conds = { s.acd.conds with supplyLow := false } ∧
      t.acd.window = some { restoration := true } ∧ t.acd.drive = s.acd.drive ∧ t.acd.next = s.acd.next ∧
      t.acd.requested = s.acd.requested ∧ t.acd.switched = s.acd.switched ∧ t.aup.relayOwed = true ∧
      t.aup.relayMute = { v := s.aup.relayMute.v, target := 0, count := 128 } ∧ back t ∧
      t = { s with aup := t.aup, tne := t.tne, acd := t.acd, lkc := t.lkc }) ∧
    (∀ w : Window, s.acd.stability = true → s.acd.window = some w → ∃ t : State, exec .stabilityTimerExpiry s = .next t ∧
      t.acd.supplyGood = true ∧ t.acd.stability = false ∧ t.acd.conds = { s.acd.conds with supplyLow := false } ∧
      t.acd.drive = s.acd.drive ∧ t.acd.requested = s.acd.requested ∧ t.acd.switched = s.acd.switched ∧ t.aup = s.aup ∧ back t ∧
      t = { s with tne := t.tne, acd := t.acd, lkc := t.lkc } ∧
      (w.phase = .down → t.acd.window = some { w with restoration := true } ∧ t.acd.next = s.acd.next) ∧
      (w.phase = .settle ∨ w.phase = .up → t.acd.window = some w ∧ t.acd.next = { s.acd.next with restoration := true })) ∧
    (s.acd.stability = false → exec .stabilityTimerExpiry s = .next s)

/-- A settle that is over asks UP of the relay-mute gain over 128 samples. The completion of DOWN is the switch step: the pending relays and lines
take their states, the drive goes on where the supply is GOOD, and the settle begins; the completion of UP ends the window and gives the
completions it owes, one of which lets a recall in RELAYS go on, and starts a window from a next set that holds anything (R178, R179). With the
drive ON the loop relays switched IN are energized and the amp lines switched CLOSED are closed, and with the drive OFF none (R176). That the
restoration flag stands until the window ends is the model's choice (log 66), as is the settle count of 0 of a window that starts (log 84); that a
newer set replaces the waiting state of an amp line as of a loop relay, and that a line asked back keeps its place with that state, is deduced
(log 22). A relay set handed over with no window in progress: with the loop relays as they stand its amp lines switch at once and its completion
is given; with others a window starts that holds the changes of both. In DOWN they join the window, and with it its completion. In SETTLE or UP
amp lines with no loop relay to change and no next set switch at once, and all else waits in the next set (R177, R179, R180). A build whose last
request is granted: with a new relay set the recall is in RELAYS until its completion; then, as with none to wait for, a quantized recall is ARMED
and another fades at the next block boundary (R138, R139, R140). -/
def Obligations.WindowSwitchesRelays : Prop :=
  (∀ (a : Acd) (k : Nat), a.loopLines.getLsbD k = (a.drive && a.switched.loops.getLsbD k) ∧
    a.ampLines.getLsbD k = (a.drive && a.switched.amps.getLsbD k)) ∧
  (∀ (s : State) (w : Window), s.acd.window = some w → w.phase = .settle → w.settle = 240 → exec .windowSettleComplete s =
    .next { s with
      acd := { s.acd with window := some { w with phase := .up } }
      aup := { s.aup with relayMute := { v := s.aup.relayMute.v, target := 8192, count := 128 }, relayOwed := true } }) ∧
  (∀ (s : State) (w : Window), s.aup.relayOwed = true → s.aup.relayMute.count = 0 → s.acd.window = some w →
    (w.phase = .down → exec .relayMuteCompletion s =
      .next { s with
        aup := { s.aup with relayOwed := false }
        acd := { s.acd with
          switched := {
            loops := (s.acd.switched.loops &&& ~~~w.pending.loopMask) ||| (w.pending.loops &&& w.pending.loopMask)
            amps := (s.acd.switched.amps &&& ~~~w.pending.ampMask) ||| (w.pending.amps &&& w.pending.ampMask) }
          drive := s.acd.drive || s.acd.supplyGood
          window := some { w with phase := .settle, pending := {}, settle := 0 } } }) ∧
    (w.phase = .up →
      let waits := s.rcu.state = .relays ∧ s.rcu.fadeDue = false ∧ s.rcu.ticket ∈ w.owed
      let goes : Rcu := if quantized s then { s.rcu with state := .armed, fadeDue := false } else { s.rcu with fadeDue := true }
      let ended : State := { s with aup := { s.aup with relayOwed := false }, acd := { s.acd with window := none } }
      let again : State := { s with
        aup := { s.aup with relayMute := { v := s.aup.relayMute.v, target := 0, count := 128 }, relayOwed := true }
        acd := { s.acd with next := {}, window := some {
          pending := s.acd.next.changes, restoration := s.acd.next.restoration, owed := s.acd.next.owed } } }
      (s.acd.next.holds = false → ¬waits → exec .relayMuteCompletion s = .next ended) ∧
      (s.acd.next.holds = false → waits → exec .relayMuteCompletion s = .next { ended with rcu := goes }) ∧
      (s.acd.next.holds = true → ¬waits → exec .relayMuteCompletion s = .next again) ∧
      (s.acd.next.holds = true → waits → exec .relayMuteCompletion s = .next { again with rcu := goes }))) ∧
  (∀ (r : RelaySet) (s : State),
    let a := s.acd
    let h := handRelaySet r s
    let handed : Acd := { a with requested := r, nextTicket := a.nextTicket + 1 }
    let joined := fun (c : Changes) =>
      let m := r.loops ^^^ waitingLoops a
      ({ loopMask := c.loopMask ||| m, loops := (c.loops &&& ~~~m) ||| (r.loops &&& m)
         ampMask := c.ampMask ||| (r.amps ^^^ a.switched.amps), amps := r.amps } : Changes)
    h.2.1 = a.nextTicket ∧
    (a.window = none → a.next = {} →
      (r.loops = a.switched.loops → h.2.2 = true ∧
        h.1 = { s with acd := { handed with switched := { a.switched with amps := r.amps } } }) ∧
      (r.loops ≠ a.switched.loops → h.2.2 = false ∧ waitingLoops h.1.acd = r.loops ∧
        h.1 = { s with
          aup := { s.aup with relayMute := { v := s.aup.relayMute.v, target := 0, count := 128 }, relayOwed := true }
          acd := { handed with window := some { pending := joined {}, owed := [a.nextTicket] } } })) ∧
    (∀ w : Window, a.window = some w → w.phase = .down → a.next = {} → h.2.2 = false ∧ waitingLoops h.1.acd = r.loops ∧
      h.1 = { s with acd := { handed with window := some { w with pending := joined w.pending, owed := w.owed ++ [a.nextTicket] } } }) ∧
    (∀ w : Window, a.window = some w → w.phase ≠ .down → h.2.2 = false ∧ waitingLoops h.1.acd = r.loops ∧
      (r.loops = waitingLoops a → a.next.holds = false → h.1 = { s with acd := { handed with
        switched := { a.switched with amps := r.amps }, window := some { w with owed := w.owed ++ [a.nextTicket] } } }) ∧
      (r.loops ≠ waitingLoops a ∨ a.next.holds = true → h.1 = { s with acd := { handed with
        next := { a.next with changes := joined a.next.changes, owed := a.next.owed ++ [a.nextTicket] } } }))) ∧
  ∀ (s : State) (q : PageReq), s.lma.requests = some [q] → q.pages ≤ s.lma.free.length →
    let c := (buf s s.rcu.build).chain
    let wanted := ((c.scenes.getD c.scene {}).relays).or c.relays
    (wanted = none ∨ wanted = some s.acd.requested → quantized s = true → ∃ t : State, exec .shortRequestGrant s = .next t ∧
      (buf t s.rcu.build).state = .ready ∧ t.rcu.state = .armed ∧ t.rcu.fadeDue = false ∧ t.acd = s.acd ∧ t.aup = s.aup) ∧
    (∀ r : RelaySet, wanted = some r → r ≠ s.acd.requested →
      let h := handRelaySet r s
      ∃ t : State, exec .shortRequestGrant s = .next t ∧ (buf t s.rcu.build).state = .ready ∧
        t.acd = h.1.acd ∧ t.aup = h.1.aup ∧ t.rcu.ticket = h.2.1 ∧
        (h.2.2 = false → t.rcu.state = .relays ∧ t.rcu.fadeDue = false) ∧
        (h.2.2 = true → quantized s = true → t.rcu.state = .armed ∧ t.rcu.fadeDue = false) ∧
        (h.2.2 = true → quantized s = false → t.rcu.state = .relays ∧ t.rcu.fadeDue = true))

/-- BYPASS: the reply, with flag, relay phase and condition set as they stand after the request, goes first. A request that leaves the flag
changes nothing. ON or TOGGLE sets it: from CIRCUIT the relay starts MUTING with BYPASS in the mute set, from OUT it stays. OFF or TOGGLE clears
it: a MUTING relay goes back to CIRCUIT and BYPASS leaves the mute set; from OUT with no other condition the relay is energized first, which is
reported, and BYPASS leaves; with another condition the relay stays OUT. Each change of the flag is reported. An operation above 2 is BAD_FIELD
(R185, R186, R187). That the change of the flag is reported after the change of the relay it causes, with the phase and the condition set as they
then stand, is deduced (log 31). -/
def Obligations.BypassOperatesManualFlag : Prop :=
  ∀ (f : Frame) (s : State) (x : Byte), Room f.link s → f.payload = [x] →
    let d := destOf f s
    let u := arrived f s
    let off : Conds := { s.acd.conds with manual := false }
    let on : Conds := { s.acd.conds with manual := true }
    let replied := fun (manual : Bool) (relay : RelayPhase) (conds : Conds) => answer (some d) .ok 0 (.bypass manual relay conds) u
    let moved := fun (manual : Bool) (relay : RelayPhase) (conds : Conds) => { replied manual relay conds with
      acd := { s.acd with manual := manual, relay := relay, conds := conds } }
    let ramp := fun (m : MuteSet) =>
      if s.tne.muteRamp.target = (if m.tune || m.bypass || m.start || m.clock then 0 else 8192) then s.tne.muteRamp
      else { v := s.tne.muteRamp.v, target := if m.tune || m.bypass || m.start || m.clock then 0 else 8192, count := 256 }
    let muted := fun (t : State) => ({ t with tne := { s.tne with
      mute := { s.tne.mute with bypass := true }, muteRamp := ramp { s.tne.mute with bypass := true }, busNotice := true } } : State)
    let opened := fun (t : State) => ({ t with tne := { s.tne with
      mute := { s.tne.mute with bypass := false }, muteRamp := ramp { s.tne.mute with bypass := false }, busNotice := false } } : State)
    ((x = 0 ∧ s.acd.manual = true ∨ x = 1 ∧ s.acd.manual = false) →
      exec (.bypass f) s = .next (replied s.acd.manual s.acd.relay s.acd.conds)) ∧
    ((x = 0 ∨ x = 2) → s.acd.manual = false →
      (s.acd.relay = .circuit → s.acd.conds.other = false → s.tne.mute.bypass = false →
        exec (.bypass f) s = .next (post (.bypassState true .muting on true) (muted (moved true .muting on)))) ∧
      (s.acd.relay = .out → exec (.bypass f) s = .next (post (.bypassState false .out on true) (moved true .out on)))) ∧
    ((x = 1 ∨ x = 2) → s.acd.manual = true →
      (s.acd.relay = .muting → s.acd.conds.other = false →
        exec (.bypass f) s = .next (post (.bypassState true .circuit off false) (opened (moved false .circuit off)))) ∧
      (s.acd.relay = .out → s.acd.conds.other = false → exec (.bypass f) s =
        .next (post (.bypassState true .circuit off false) (post (.bypassState true .circuit off false) (opened (moved false .circuit off))))) ∧
      (s.acd.relay = .out → s.acd.conds.other = true →
        exec (.bypass f) s = .next (post (.bypassState false .out off false) (moved false .out off)))) ∧
    (2 < x.toNat → exec (.bypass f) s = .next (answerCode (some d) .badField u))

/-! ## Arithmetic (chapter 2) -/

/-- A ramp restarted toward a target over a length keeps its value and takes the target and the length, or stands at the target at once for length
0; after k advances it lies between the value it had and the target with k samples fewer left, after the whole length it stands at the target;
restarted toward the value it holds, it stays there while the count runs down; a snap puts it at its target (R31, R32). A biquad section gives the
rounded and saturated sum of its five products, and moves its histories, the saturated output among them; a saturation that changes the output is
a clip event (R26); a filter set runs its sections one after another (R27). A line, a filter set, a slot and a chain tell a clip event exactly
where one of the saturations made in them changes a value (R19). A delay line reads d samples behind its write position, writes the saturated sum
of input and saturated feedback there, advances, and touches no other sample of line memory (R29). A slot with its ramps advanced: what each of
the eleven kinds makes of its input, then the dip gain, then the mix of it and the input by the engage gain; a slot that is THRU gives its input
(R37 to R43); a stub gives its input at its dry gain, reaches no line, and goes on with its dip and engage steps (R72). A chain gives each slot
what the one before it gave (R35). That the product of the sample at which a gate opens uses the gain before the restart is deduced (log 5). -/
def Obligations.RampSectionAndLineStep : Prop :=
  (∀ (r : Ramp) (target : Int) (len k : Nat), k ≤ len →
     let q := r.restart target len
     (len = 0 → q = ⟨target, target, 0⟩) ∧
     (0 < len → q = ⟨r.v, target, len⟩ ∧
       Nat.repeat Ramp.advance len q = ⟨target, target, 0⟩ ∧
       (Nat.repeat Ramp.advance k q).target = target ∧ (Nat.repeat Ramp.advance k q).count = len - k ∧
       min r.v target ≤ (Nat.repeat Ramp.advance k q).v ∧ (Nat.repeat Ramp.advance k q).v ≤ max r.v target ∧
       (target = r.v → Nat.repeat Ramp.advance k q = ⟨r.v, target, len - k⟩)) ∧
     r.snap = ⟨r.target, r.target, 0⟩) ∧
  (let sat := fun v : Int => max (-8388608) (min 8388607 v)
   let g := fun a b : Int => sat ((a * b + 4096) / 8192)
   (∀ (c : Biquad) (h : Hist) (x0 : Int),
     let acc := c.b0 * x0 + c.b1 * h.x1 + c.b2 * h.x2 - c.a1 * h.y1 - c.a2 * h.y2
     let p := (acc + 8192) / 16384
     let out := biquad c h x0
     (2 * acc < 16384 * (2 * p + 1) ∧ 16384 * (2 * p - 1) ≤ 2 * acc) ∧
     out.1.y = (if 8388607 < p then 8388607 else if p < -8388608 then -8388608 else p) ∧ (out.1.clip = true ↔ out.1.y ≠ p) ∧
     out.2.x1 = x0 ∧ out.2.x2 = h.x1 ∧ out.2.y1 = out.1.y ∧ out.2.y2 = h.y1) ∧
   let off := fun p : Int => decide (sat p ≠ p)
   let gc := fun a b : Int => off ((a * b + 4096) / 8192)
   (∀ (c : Biquad) (h : Hist) (cs : List Biquad) (hs : List Hist) (x : Int),
     (filterSet [] hs x).1.y = x ∧ (filterSet [] hs x).1.clip = false ∧
     (filterSet (c :: cs) (h :: hs) x).1.clip = ((biquad c h x).1.clip || (filterSet cs hs (biquad c h x).1.y).1.clip) ∧
     (filterSet (c :: cs) (h :: hs) x).1.y = (filterSet cs hs (biquad c h x).1.y).1.y ∧
     (filterSet (c :: cs) (h :: hs) x).2 = (biquad c h x).2 :: (filterSet cs hs (biquad c h x).1.y).2) ∧
   (∀ (pages : List Nat) (mem : Mem Int) (base len q : Nat) (x d g : Int),
     let t := lineStep pages mem base len q x d g
     t.r = Mem.get 0 mem (regionAddr pages (base + (((q : Int) - d) % (len : Int)).toNat)) ∧
     t.pos = (q + 1) % len ∧ t.clip = (gc t.r g || off (x + (gainProduct t.r g).y)) ∧
     ∀ a : Nat, Mem.get 0 t.mem a =
       if a = regionAddr pages (base + q) then (satClip (x + (gainProduct t.r g).y)).y else Mem.get 0 mem a) ∧
   (∀ (t : Tne) (m : Lma) (lane3 : Int) (mem : Mem Int) (sl : Slot) (rest : List Slot) (x : Int),
     (chainStep t m lane3 mem [] x).y = x ∧ (chainStep t m lane3 mem [] x).clip = false ∧
     (let o := slotStep t m lane3 mem sl x
      let r := chainStep t m lane3 mem (sl :: rest) x
      let q := chainStep t m lane3 o.mem rest o.z
      r.y = q.y ∧ r.clip = (o.clip || q.clip) ∧ r.mem = q.mem ∧ r.slots = o.slot :: q.slots ∧
      (o.send = none → r.send = q.send) ∧ (o.send ≠ none → r.send = o.send))) ∧
   (∀ (t : Tne) (m : Lma) (lane3 : Int) (mem : Mem Int) (sl : Slot) (x : Int), sl.stub = true →
     let o := slotStep t m lane3 mem sl x
     let v := sl.voice
     let d := v.dry.advance.v
     let e := sl.engage.advance.v
     let p := (g (g x d) sl.dip.advance.v * e + x * (8192 - e) + 4096) / 8192
     o.z = sat p ∧ o.clip = (gc x d || gc (g x d) sl.dip.advance.v || off p) ∧ o.mem = mem ∧ o.send = none ∧
     o.slot = { sl with dip := sl.dip.advance, engage := sl.engage.advance, voice := { v with
       a := v.a.advance, b := v.b.advance, dry := v.dry.advance, wet := v.wet.advance, input := v.input.advance } }) ∧
   ∀ (t : Tne) (m : Lma) (lane3 : Int) (mem : Mem Int) (sl : Slot) (x : Int), sl.stub = false →
     let o := slotStep t m lane3 mem sl x
     let a := sl.voice.a.advance.v
     let b := sl.voice.b.advance.v
     let e := sl.engage.advance.v
     let out := fun (y : Int) (clip : Bool) =>
       let p := (g y sl.dip.advance.v * e + x * (8192 - e) + 4096) / 8192
       o.z = sat p ∧ o.clip = (clip || gc y sl.dip.advance.v || off p)
     let mixing := fun w : Int => (x * sl.voice.dry.advance.v + w * sl.voice.wet.advance.v + 4096) / 8192
     let mix := fun w : Int => sat (mixing w)
     let pages := regionPages m sl.voice.region
     let line := fun (mem : Mem Int) (i base len : Nat) (x d g : Int) => lineStep pages mem base len (sl.voice.pos.getD i 0) x d g
     let curve := fun (k : Int) => (Mem.get {} t.curves k.toNat).current.getD []
     let filter := fun (k : Int) => (Mem.get {} t.filters k.toNat).current.getD []
     let shaped := fun (c : List Int) (u : Int) =>
       let i := ((u + 8388608) / 65536).toNat
       c.getD i 0 + ((c.getD (i + 1) 0 - c.getD i 0) * ((u + 8388608) % 65536)) / 65536
     o.slot.dip = sl.dip.advance ∧ o.slot.engage = sl.engage.advance ∧ o.slot.run = sl.run ∧ o.slot.params = sl.params ∧
     (sl.thru = true → out x false ∧ o.mem = mem ∧ o.send = none) ∧
     (sl.thru = false →
       (sl.kind ≠ .mod → sl.kind ≠ .delay → sl.kind ≠ .reverb → o.mem = mem) ∧
       (sl.kind = .trim → out (g x a) (gc x a)) ∧
       (sl.kind = .level → out (g x b) (gc x b)) ∧
       (sl.kind = .gate → out (g x b) (gc x b) ∧
         (a ≤ x.natAbs → o.slot.gateOpen = true ∧ o.slot.quiet = 0 ∧
           o.slot.voice.b = if sl.gateOpen then sl.voice.b.advance else { v := b, target := 8192, count := 48 }) ∧
         ((x.natAbs : Int) < a → o.slot.gateOpen = sl.gateOpen ∧ o.slot.voice.b = sl.voice.b.advance ∧
           o.slot.quiet = if sl.gateOpen then min 480 (sl.quiet + 1) else sl.quiet)) ∧
       (sl.kind = .drive →
         let v := shaped (curve (sl.run.getD 1 0)) (g x a)
         out (g v b) (gc x a || gc v b)) ∧
       (sl.kind = .amp →
         let f := filterSet (filter (sl.run.getD 2 0)) sl.hist (shaped (curve (sl.run.getD 1 0)) (g x a))
         out (g f.1.y b) (gc x a || f.1.clip || gc f.1.y b) ∧ o.slot.hist = f.2) ∧
       (sl.kind = .cab ∨ sl.kind = .eq →
         let f := filterSet (filter (sl.run.getD 0 0)) sl.hist x
         out (g f.1.y b) (f.1.clip || gc f.1.y b) ∧ o.slot.hist = f.2) ∧
       (sl.kind = .mod →
         let p : Int := (sl.lfo.toNat / 65536 : Nat)
         let tri := if p < 32768 then 2 * p else 2 * (65535 - p)
         let len := 1024 * pages.length
         let r := line mem 0 0 len x (clampInt 1 (max 1 ((len : Int) - 1)) (48 + b * tri / 65536)) 0
         out (mix r.r) (r.clip || off (mixing r.r)) ∧ o.mem = r.mem ∧ o.slot.voice.pos = [r.pos] ∧
         o.slot.lfo = sl.lfo + BitVec.ofInt 32 (a * 4294967296 / 4800000)) ∧
       (sl.kind = .delay →
         let r := line mem 0 0 (1024 * pages.length) (g x sl.voice.input.advance.v) a b
         out (mix r.r) (gc x sl.voice.input.advance.v || r.clip || off (mixing r.r)) ∧ o.mem = r.mem ∧ o.slot.voice.pos = [r.pos]) ∧
       (sl.kind = .reverb →
         let xi := g x sl.voice.input.advance.v
         let r1 := line mem 0 0 1447 xi 1447 b
         let r2 := line r1.mem 1 1447 1949 xi 1949 b
         let r3 := line r2.mem 2 3396 2411 xi 2411 b
         let r4 := line r3.mem 3 5807 3001 xi 3001 b
         let c := ((r1.r + r2.r + r3.r + r4.r) * 2048 + 4096) / 8192
         let r5 := line r4.mem 4 8808 347 (sat c) 347 4096
         let r6 := line r5.mem 5 9155 113 r5.r 113 4096
         out (mix r6.r) (gc x sl.voice.input.advance.v || r1.clip || r2.clip || r3.clip || r4.clip || off c || r5.clip || r6.clip ||
           off (mixing r6.r)) ∧
         o.mem = r6.mem ∧ o.slot.voice.pos = [r1.pos, r2.pos, r3.pos, r4.pos, r5.pos, r6.pos]) ∧
       (sl.kind = .loop → out (g lane3 b) (gc x a || gc lane3 b || gc (g x a) e) ∧ o.send = some (g (g x a) e)) ∧
       (sl.kind ≠ .loop → o.send = none)))

/-- The gain product of a sample and a gain: the exact product over 8192, halves up, saturated with a clip event where that changes it; the
sample itself at 8192, 0 at gain 0, and never larger than the sample, with no clip event, at a gain up to 8192 (R17, R18). -/
def Obligations.GainProductRule : Prop :=
  ∀ s g : Int, -8388608 ≤ s → s ≤ 8388607 → 0 ≤ g → g ≤ 32767 →
    let p := (s * g + 4096) / 8192
    let out := gainProduct s g
    (2 * (s * g) < 8192 * (2 * p + 1) ∧ 8192 * (2 * p - 1) ≤ 2 * (s * g)) ∧
    out.y = (if 8388607 < p then 8388607 else if p < -8388608 then -8388608 else p) ∧ (out.clip = true ↔ out.y ≠ p) ∧
    (g = 8192 → out = ⟨s, false⟩) ∧ (g = 0 → out = ⟨0, false⟩) ∧
    (g ≤ 8192 → out.y.natAbs ≤ s.natAbs ∧ out.clip = false) ∧ (out.clip = true → 8192 < g)

/-- The tables of the chain and of the reference tone. Each slot kind has its cost, the pages it asks for, and its parameters by index with class and
range; the pages of a DELAY follow its range setting (R36, R59). The TONE sample is the entry of the table of 256 that the top eight bits of the phase
choose: entry k is floor(2,097,152 × sin(2πk / 256) + 0.5), of which the first quarter is written out and the other three follow (R16). -/
def Obligations.TablesOfTheEngine : Prop :=
  let c := ParamClass.continuous
  let d := ParamClass.discrete
  let w := ParamClass.setting
  (∀ (k : Kind) (cost pages : Nat) (params : List (ParamClass × Int × Int)), (k, cost, pages, params) ∈ ([
      (.trim, 4, 0, [(c, 0, 1023)]),
      (.gate, 16, 0, [(c, 0, 65535), (w, 1, 2000)]),
      (.drive, 48, 0, [(c, 0, 1023), (d, 0, 15), (c, 0, 1023)]),
      (.amp, 224, 0, [(c, 0, 1023), (d, 0, 15), (d, 0, 31), (c, 0, 1023)]),
      (.cab, 160, 0, [(d, 0, 31), (c, 0, 1023)]),
      (.eq, 64, 0, [(d, 0, 31), (c, 0, 1023)]),
      (.mod, 96, 2, [(c, 1, 1000), (c, 0, 1023), (c, 0, 1023)]),
      (.delay, 80, 0, [(c, 1, 5000), (d, 0, 6), (w, 1, 5000), (c, 0, 1023), (c, 0, 1023), (w, 0, 20000)]),
      (.reverb, 320, 10, [(c, 0, 1023), (c, 0, 1023), (w, 0, 20000)]),
      (.loop, 24, 0, [(c, 0, 1023), (c, 0, 1023)]),
      (.level, 4, 0, [(c, 0, 1023)])] : List (Kind × Nat × Nat × List (ParamClass × Int × Int))) →
    k.cost = cost ∧ k.params = params ∧ ∀ run : List Int, (k ≠ .delay → pagesAsked k run = pages) ∧
      (k = .delay → 1 ≤ run.getD 2 0 →
        run.getD 2 0 * 48 + 1 ≤ 1024 * (pagesAsked k run : Int) ∧ 1024 * (pagesAsked k run : Int) < run.getD 2 0 * 48 + 1 + 1024)) ∧
  (slotsCost = fun l => (l.map (fun sl => if sl.stub then 0 else sl.kind.cost)).sum) ∧
  ∀ (p : Phase) (k : Nat), k = p.toNat / 16777216 →
    let quarter : List Int := [
      0, 51467, 102902, 154276, 205557, 256714, 307716, 358533, 409134, 459489, 509566, 559337, 608771,
      657838, 706509, 754755, 802545, 849853, 896648, 942903, 988591, 1033682, 1078152, 1121971, 1165115, 1207557,
      1249272, 1290234, 1330419, 1369803, 1408361, 1446071, 1482910, 1518856, 1553887, 1587982, 1621120, 1653282, 1684448,
      1714600, 1743718, 1771786, 1798787, 1824705, 1849523, 1873227, 1895803, 1917237, 1937516, 1956628, 1974561, 1991305,
      2006849, 2021185, 2034303, 2046196, 2056856, 2066277, 2074453, 2081380, 2087054, 2091470, 2094626, 2096520, 2097152]
    (k ≤ 64 → toneSample p = quarter.getD k 0) ∧
    (64 ≤ k → k ≤ 128 → toneSample p = quarter.getD (128 - k) 0) ∧
    (128 ≤ k → k ≤ 192 → toneSample p = -quarter.getD (k - 128) 0) ∧
    (192 ≤ k → toneSample p = -quarter.getD (256 - k) 0)

/-! ## Audio Port -/

/-- The clock monitor's table: an edge in ABSENT enters SETTLING, in SETTLING a period is counted or the count starts again, in RUNNING an
in-tolerance period is a sample period; entering SETTLING posts CLOCK_STATE (R11). A sample period in RUNNING with nothing due leaves the monitor
RUNNING; the tone phase goes on by its increment (R16) and the sample number, of which tap intervals are differences, by one (R103). The period
that brings the count to 4,800 leaves the monitor in SETTLING: its entry into RUNNING is a row of its own, CLOCK_RUNNING_NOTICE, which the next
period takes first where it has not come (the model's choice, log 2). Leaving RUNNING, by an out-of-tolerance period or by 1 ms without an edge,
has the same effects: the monitor is ABSENT, which is reported with its reason, CLOCK enters the output bus mute set with the bus at 0 at once,
CLOCK_DOWN begins and takes the bypass relay out, which is reported where it moves, the tap series and the follower's measurement end, the kept
output samples and silence counts are 0, and nothing else changes but the no-edge timer, which the edge of the period restarts and its own expiry
stops (R11, R12, R104, R107). From SETTLING the timer's expiry enters ABSENT. That every edge starts that timer and its expiry stops it is deduced
(log 41), and so is that a beat by count which is due is dropped as the clock is lost (log 47). That what else was due and has not been taken is
then dropped is the model's choice: an entry into SILENT (log 58), the clock-running notice (log 59), a completed measurement of the follower (log
62). So is the settle count of 0 in ABSENT (log 75). -/
def Obligations.ClockMonitorMoves : Prop :=
  (∀ (len : Nat) (xs : List Sample24) (s : State),
     let e : State := { s with aup := { s.aup with noEdgeTimer := true } }
     (s.aup.clock = .absent → exec (.wordClockPeriod len xs) s =
       .next (post (.clockState .settling none) { e with aup := { e.aup with clock := .settling, settle := 0 } })) ∧
     (s.aup.clock = .settling → s.aup.settle < 4800 → 320 ≤ len → len ≤ 347 →
       exec (.wordClockPeriod len xs) s = .next { e with aup := { e.aup with settle := s.aup.settle + 1 } }) ∧
     (s.aup.clock = .settling → s.aup.settle < 4800 → (len < 320 ∨ 347 < len) →
       exec (.wordClockPeriod len xs) s = .next { e with aup := { e.aup with settle := 0 } }) ∧
     (s.aup.clock = .running → 320 ≤ len → len ≤ 347 → exec (.wordClockPeriod len xs) s = exec (.samplePeriod xs) e) ∧
     (s.aup.clock = .running → settleAll s = s → ∃ t : State, exec (.samplePeriod xs) s = .next t ∧ t.aup.clock = .running ∧
       t.aup.settle = s.aup.settle ∧ t.aup.tonePhase = s.aup.tonePhase + s.aup.toneInc ∧ t.tmp.sampleNo = s.tmp.sampleNo + 1)) ∧
  let lost := fun (reason : ClockReason) (s t : State) =>
    t.aup.clock = .absent ∧ t.aup.settle = 0 ∧
    t.tne.mute = { s.tne.mute with clock := true } ∧ t.tne.muteRamp = ⟨0, 0, 0⟩ ∧
    t.acd = { s.acd with conds := { s.acd.conds with clockDown := true }, relay := .out } ∧
    t.tmp = { s.tmp with
      lastTap := none, intervals := [], beatDue := false, follower := { s.tmp.follower with
        start := none, count := 0, m1 := if s.tmp.follower.state = .search then none else s.tmp.follower.m1 } } ∧
    (∀ k ∈ lanes, (outLane t k) = { outLane s k with prev := 0 } ∧
      (inLane t k) = { inLane s k with silence := { (inLane s k).silence with count := 0 } }) ∧
    t.aup.relayMute = s.aup.relayMute ∧ t.aup.relayOwed = s.aup.relayOwed ∧ t.aup.override = s.aup.override ∧
    t.aup.tonePhase = s.aup.tonePhase ∧ t.aup.toneInc = s.aup.toneInc ∧
    t.tne = { s.tne with mute := t.tne.mute, muteRamp := t.tne.muteRamp, busNotice := t.tne.busNotice } ∧
    t = { s with aup := t.aup, tne := t.tne, acd := t.acd, tmp := t.tmp, lkc := t.lkc } ∧
    (s.acd.relay = .out → t.lkc = (post (.clockState .absent (some reason)) s).lkc) ∧
    (s.acd.relay ≠ .out → t.lkc = (post (.bypassState false .out t.acd.conds s.acd.manual)
      (post (.clockState .absent (some reason)) s)).lkc)
  (∀ (len : Nat) (xs : List Sample24) (s : State), s.aup.clock = .running → s.tne.mute.clock = false → (len < 320 ∨ 347 < len) →
    ∃ t : State, exec (.wordClockPeriod len xs) s = .next t ∧ lost .rate s t ∧ t.aup.noEdgeTimer = true) ∧
  (∀ s : State, s.aup.noEdgeTimer = true → s.aup.clock = .running → s.tne.mute.clock = false →
    ∃ t : State, exec .noEdgeTimerExpiry s = .next t ∧ lost .noEdge s t ∧ t.aup.noEdgeTimer = false) ∧
  (∀ s : State, s.aup.noEdgeTimer = true → s.aup.clock = .settling → exec .noEdgeTimerExpiry s =
    .next (post (.clockState .absent none)
      { s with aup := { s.aup with noEdgeTimer := false, clock := .absent, settle := 0 } }))

/-- The clock monitor enters RUNNING with the settle count at 4,800: every lane stands at its targets with no dip, every slot with its ramps at
their targets and no dip, the tails and remnants are gone, CLOCK leaves the mute set and CLOCK_DOWN ends, and the beat count is 0; a relay window
in progress is finished, its switch step taken where it was still to come (R11, R13, R44, R77, R181). A request list that waits is served to its
end and its build is READY; the regions of tails and remnants return their pages, and every sample of a page still held by a region is 0, with all
other line memory as it stands (R13, R77). A recall in FADING completes: the new buffer is ACTIVE at full fade gain, the old one EMPTY, the unit
IDLE, and the identity is the new buffer's (R150). That the settle count is then 0 is the model's choice (log 75). -/
def Obligations.ClockRunningFinishesMovements : Prop :=
  ∀ s : State, s.aup.clock = .settling → s.aup.settle = 4800 →
    (s.rcu.state ≠ .fading → s.lma.requests = none →
      ∃ t : State, exec .clockRunningNotice s = .next t ∧
        t.aup.clock = .running ∧ t.aup.settle = 0 ∧
        (∀ k ∈ lanes, inLane t k = { inLane s k with
          gain := Ramp.at (gainTarget (inLane s k).cfg.trim (inLane s k).cfg.mute), dip := .none
          inverted := (inLane s k).pendInverted.getD (inLane s k).inverted
          loopback := (inLane s k).pendLoopback.getD (inLane s k).loopback
          pendInverted := none, pendLoopback := none }) ∧
        (∀ k ∈ lanes, outLane t k = { outLane s k with
          gain := Ramp.at (gainTarget (outLane s k).cfg.trim (outLane s k).cfg.mute), dip := .none
          inverted := (outLane s k).pendInverted.getD (outLane s k).inverted
          source := (outLane s k).pendSource.getD (outLane s k).source
          pendInverted := none, pendSource := none }) ∧
        (∀ (bid : BufId) (sl : Slot), sl ∈ (buf t bid).chain.slots → sl.dipPhase = .none ∧ sl.hist = [] ∧
          ∀ r ∈ [sl.voice.a, sl.voice.b, sl.voice.dry, sl.voice.wet, sl.voice.input, sl.dip, sl.engage], r.count = 0 ∧ r.v = r.target) ∧
        (s.acd.window = none → t.acd.window = none ∧ t.aup.relayMute = ⟨s.aup.relayMute.target, s.aup.relayMute.target, 0⟩ ∧
          t.acd.switched = s.acd.switched ∧ t.rcu = s.rcu) ∧
        (∀ w : Window, s.acd.window = some w → s.acd.next.holds = false →
          t.acd.window = none ∧ t.aup.relayMute = ⟨8192, 8192, 0⟩ ∧
          (w.phase ≠ .down → t.acd.switched = s.acd.switched ∧ t.acd.drive = s.acd.drive) ∧
          (w.phase = .down → t.acd.drive = (s.acd.drive || s.acd.supplyGood) ∧ t.acd.switched = {
            loops := (s.acd.switched.loops &&& ~~~w.pending.loopMask) ||| (w.pending.loops &&& w.pending.loopMask)
            amps := (s.acd.switched.amps &&& ~~~w.pending.ampMask) ||| (w.pending.amps &&& w.pending.ampMask) })) ∧
        (Mem.Wf none s.lma.regions →
          let kept := fun (id : Nat) (r : Region) => Mem.get none s.lma.regions id = some r ∧ r.owner.ofTail = false
          let freed := fun (id : Nat) (r : Region) => Mem.get none s.lma.regions id = some r ∧ r.owner.ofTail = true
          (∀ id : Nat, Mem.get none t.lma.regions id = (match Mem.get none s.lma.regions id with
            | none => none
            | some r => if r.owner.ofTail then none else some r)) ∧
          (∀ p : Nat, p ∈ t.lma.free ↔ p ∈ s.lma.free ∨ ∃ id r, freed id r ∧ p ∈ r.pages) ∧
          (∀ (id : Nat) (r : Region) (a : Nat), kept id r → a / 1024 ∈ r.pages → Mem.get 0 t.lma.mem a = 0) ∧
          (∀ a : Nat, (∀ (id : Nat) (r : Region), kept id r → a / 1024 ∉ r.pages) → Mem.get 0 t.lma.mem a = Mem.get 0 s.lma.mem a)) ∧
        t.tne.tails = [] ∧ t.tne.remnants = [] ∧ t.tne.release = false ∧ t.tne.blockPos = 0 ∧
        t.tne.mute = { s.tne.mute with clock := false, bypass := t.tne.mute.bypass } ∧
        t.acd.conds = { s.acd.conds with clockDown := false } ∧
        t.tmp.beatCount = 0 ∧ t.swc = s.swc ∧ t.pst = s.pst) ∧
    (∀ l : List PageReq, s.rcu.state ≠ .fading → s.lma.requests = some l → l.length ≤ 12 →
      ∃ t : State, exec .clockRunningNotice s = .next t ∧ t.aup.clock = .running ∧ t.tne.tails = [] ∧ t.tne.remnants = [] ∧
        t.lma.requests = none ∧ (buf t s.rcu.build).state = .ready ∧ t.swc = s.swc ∧ t.pst = s.pst) ∧
    (∀ r : Recall, s.rcu.state = .fading → s.rcu.flight = some r → s.rcu.pending = none → s.rcu.joinedDue = false → s.lma.requests = none →
      let new := s.rcu.build
      let old := otherBuf new
      (s.rcu.swapped = true ∧ (buf s new).state = .active ∧ (buf s old).state = .outgoing ∨
        s.rcu.swapped = false ∧ (buf s new).state = .ready ∧ (buf s old).state = .active) →
      ∃ t : State, exec .clockRunningNotice s = .next t ∧ t.aup.clock = .running ∧ t.rcu.state = .idle ∧ t.rcu.flight = none ∧
        buf t old = {} ∧ (buf t new).state = .active ∧ (buf t new).chain.fade = ⟨8192, 8192, 0⟩ ∧
        t.rcu.ident = { preset := some (buf s new).chain.preset, scene := (buf s new).chain.scene
                        gen := (buf s new).chain.gen, edited := (buf s new).chain.edited } ∧
        t.tne.tails = [] ∧ t.tne.remnants = [] ∧ t.pst = s.pst)

/-- A sample period with nothing due. Each input lane's raw sample is the codec's or the sample its loopback lane kept; the processed sample is
the polarity, the gain and, on lane 1, the relay-mute gain applied to it, and a full-scale raw sample, or a saturation by the polarity or the lane
gain, is one clip event of the lane (R3, R10); the silence detectors take the raw samples (R14). The output bus is the sum of each chain's output
at its fade gain and of the wet samples of the tails and remnants at theirs, whatever there is of each, times the mute gain; a tail takes its
stub's input while that chain is processed and 0 otherwise, a remnant 0, and chains, tails and remnants go through line memory in that order (R23,
R24, R41, R42, R73, R75). Each output lane takes the sample its effective source gives it, applies polarity and gain, keeps it, and counts its
clips (R4, R5). Every ramp of the lanes, of the processed slots, of the fades, tails and remnants advances once, the hold counts, the beat count,
the settle count of a window and the tone phase move, and the tuner filters take the raw samples (R16, R35, R50, R58, R73, R79, R100, R108, R178);
a saturation in the ACTIVE chain marks the block as clipped (R20); buffers that are not processed, settings, presets and store stand. -/
def Obligations.SamplePeriodAdvances : Prop :=
  ∀ (xs : List Sample24) (s : State), s.aup.clock = .running → settleAll s = s →
    let sat := fun v : Int => max (-8388608) (min 8388607 v)
    let clips := fun v : Int => decide (v < -8388608 ∨ 8388607 < v)
    let prod := fun a b : Int => (a * b + 4096) / 8192
    let raw := fun k : Nat => if (inLane s k).loopback = 0 then (xs.getD (k - 1) 0).toInt else (outLane s (inLane s k).loopback).prev
    let relay := s.aup.relayMute.advance.v
    let clipPath := fun (on : Bool) (v gain : Int) => (on && clips (-v)) || clips (prod (if on then sat (-v) else v) gain)
    let level := fun k : Nat => let v := if (inLane s k).inverted then sat (-(raw k)) else raw k
      sat (prod v (inLane s k).gain.advance.v)
    let fine := fun k : Nat => if k = 1 then sat (prod (level 1) relay) else level k
    let clipIn := fun k : Nat => decide (raw k = -8388608 ∨ raw k = 8388607) ||
      clipPath (inLane s k).inverted (raw k) (inLane s k).gain.advance.v
    let pick := fun (i : InputSel) => match i with
      | .lane1 => fine 1
      | .lane2 => fine 2
      | .sum => sat ((fine 1 * 4096 + fine 2 * 4096 + 4096) / 8192)
    let e := (engineStep (fine 1) (fine 2) (fine 3) s).2
    let mute := s.tne.muteRamp.advance.v
    let given := fun k : Nat => match (outLane s k).source with
      | .engine => if k = 5 then e.send else e.bus
      | .dry => (match activeBuf s with | none => fine 1 | some bid => pick (buf s bid).chain.input)
      | .tone => toneSample s.aup.tonePhase
      | .zero => 0
    let clipOut := fun k : Nat => (decide ((outLane s k).source = .engine ∧ k ≠ 5) && e.busClip) ||
      clipPath (outLane s k).inverted (given k) (outLane s k).gain.advance.v
    let bump := fun (yes : Bool) (n : Nat) => if yes then (if n < 65535 then n + 1 else 0) else n
    let count := fun j : Nat => Mem.get 0 s.lkc.counters j
    let chain := fun bid : BufId => (buf s bid).chain
    let played := fun (o : Option BufId) (acc : Mem Int × Int) => match o with
      | none => acc
      | some bid =>
        let r := chainStep s.tne s.lma (fine 3) acc.1 (chain bid).slots (pick (chain bid).input)
        (r.mem, acc.2 + r.y * (chain bid).fade.advance.v)
    let first := played (activeBuf s) (s.lma.mem, 0)
    let stubIn := fun (source : Option (BufId × Nat)) => match source with
      | none => 0
      | some (bid, i) =>
        let before := fun (mem : Mem Int) =>
          (chainStep s.tne s.lma (fine 3) mem ((chain bid).slots.take i) (pick (chain bid).input)).y
        if (chain bid).slots.length ≤ i then 0
        else if activeBuf s = some bid then before s.lma.mem
        else if outgoingBuf s = some bid then before first.1 else 0
    let wet := fun (kind : Kind) (v : Voice) (mem : Mem Int) (x : Int) =>
      let pages := regionPages s.lma v.region
      let line := fun (mem : Mem Int) (i base len : Nat) (x d g : Int) => lineStep pages mem base len (v.pos.getD i 0) x d g
      let xi := sat (prod x v.input.v)
      if kind = .reverb then
        let r1 := line mem 0 0 1447 xi 1447 v.b.v
        let r2 := line r1.mem 1 1447 1949 xi 1949 v.b.v
        let r3 := line r2.mem 2 3396 2411 xi 2411 v.b.v
        let r4 := line r3.mem 3 5807 3001 xi 3001 v.b.v
        let r5 := line r4.mem 4 8808 347 (sat (((r1.r + r2.r + r3.r + r4.r) * 2048 + 4096) / 8192)) 347 4096
        let r6 := line r5.mem 5 9155 113 r5.r 113 4096
        (r6.mem, r6.r)
      else
        let r := line mem 0 0 (1024 * pages.length) xi v.a.v v.b.v
        (r.mem, r.r)
    let rung := fun (acc : Mem Int × Int) (c : Kind × Voice × Int) =>
      let v := c.2.1.advance
      let w := wet c.1 v acc.1 c.2.2
      (w.1, acc.2 + w.2 * v.wet.v)
    let total := (s.tne.tails.map (fun tl : Tail => (tl.kind, tl.voice, stubIn tl.source)) ++
      (remnantList s.tne).map (fun g : Remnant => (g.kind, g.voice, (0 : Int)))).foldl rung (played (outgoingBuf s) first)
    let sum := (total.2 + 4096) / 8192
    e.bus = sat (prod (sat sum) mute) ∧ e.busClip = clips sum ∧
    e.send = (match activeBuf s with
      | none => 0
      | some bid => (chainStep s.tne s.lma (fine 3) s.lma.mem (chain bid).slots (pick (chain bid).input)).send.getD 0) ∧
    ∃ t : State, exec (.samplePeriod xs) s = .next t ∧
      (∀ k ∈ lanes, (inLane t k).gain = (inLane s k).gain.advance ∧ (inLane t k).cfg = (inLane s k).cfg ∧
        (inLane t k).silence = (let d := (inLane s k).silence
          let h := (inLane s k).cfg.threshold
          if d.silent then (if 2 * h ≤ (raw k).natAbs then ⟨false, 0⟩ else d)
          else if (raw k).natAbs < h then ⟨false, min 4800 (d.count + 1)⟩ else ⟨false, 0⟩) ∧
        Mem.get 0 t.lkc.counters (k - 1) = bump (clipIn k) (count (k - 1))) ∧
      (∀ k ∈ lanes, (outLane t k).gain = (outLane s k).gain.advance ∧ (outLane t k).cfg = (outLane s k).cfg ∧
        (outLane t k).source = (outLane s k).source ∧ (outLane t k).inverted = (outLane s k).inverted ∧
        (outLane t k).prev = sat (prod (if (outLane s k).inverted then sat (-(given k)) else given k) (outLane s k).gain.advance.v) ∧
        Mem.get 0 t.lkc.counters (k + 7) = bump (clipOut k) (count (k + 7))) ∧
      (∀ j : Nat, 16 ≤ j → Mem.get 0 t.lkc.counters j = count j) ∧
      t.lma = { s.lma with mem := total.1 } ∧
      (∀ bid : BufId, activeBuf s = some bid → (buf t bid).chain.slots =
        (chainStep s.tne s.lma (fine 3) s.lma.mem (chain bid).slots (pick (chain bid).input)).slots) ∧
      (∀ bid : BufId, outgoingBuf s = some bid → (buf t bid).chain.slots =
        (chainStep s.tne s.lma (fine 3) first.1 (chain bid).slots (pick (chain bid).input)).slots) ∧
      t.aup.relayMute = s.aup.relayMute.advance ∧ t.tne.muteRamp = s.tne.muteRamp.advance ∧
      t.aup.tonePhase = s.aup.tonePhase + s.aup.toneInc ∧ t.tmp.sampleNo = s.tmp.sampleNo + 1 ∧
      t.tmp.beatCount = s.tmp.beatCount + 1 ∧
      t.tmp.beatDue = (s.tmp.beatDue ||
        (!(s.tmp.midiSource && decide (s.tmp.follower.state = .locked)) && decide (s.tmp.beat ≤ s.tmp.beatCount + 1))) ∧
      t.tne.blockPos = (if s.tne.blockPos = 31 then 0 else s.tne.blockPos + 1) ∧
      t.tne.blockClip = (s.tne.blockClip || (match activeBuf s with
        | none => false
        | some bid => (chainStep s.tne s.lma (fine 3) s.lma.mem (chain bid).slots (pick (chain bid).input)).clip)) ∧
      (t.tun.t1.y = s.tun.t1.y + (raw 1 - s.tun.t1.y) / 16 ∧ t.tun.t1.n = s.tun.t1.n + 1) ∧
      (t.tun.t2.y = s.tun.t2.y + (raw 2 - s.tun.t2.y) / 16 ∧ t.tun.t2.n = s.tun.t2.n + 1) ∧
      t.acd = { s.acd with window := s.acd.window.map (fun w =>
        if w.phase = .settle then { w with settle := min 240 (w.settle + 1) } else w) } ∧
      (∀ bid : BufId, activeBuf s = some bid ∨ outgoingBuf s = some bid →
        (buf t bid).state = (buf s bid).state ∧ (buf t bid).chain.fade = (chain bid).fade.advance ∧
        (buf t bid).chain.slots.length = (chain bid).slots.length ∧
        ∀ (i : Nat) (x y : Slot), (chain bid).slots[i]? = some x → (buf t bid).chain.slots[i]? = some y →
          y.dip = x.dip.advance ∧ y.engage = x.engage.advance ∧ y.voice.a = x.voice.a.advance ∧ y.voice.dry = x.voice.dry.advance ∧
          y.voice.wet = x.voice.wet.advance ∧ y.voice.input = x.voice.input.advance ∧ (x.kind ≠ .gate → y.voice.b = x.voice.b.advance) ∧
          y.run = x.run ∧ y.params = x.params ∧ y.bypass = x.bypass ∧ y.mixStored = x.mixStored ∧ y.changes = x.changes ∧ y.dipPhase = x.dipPhase ∧
          y.hold = (if x.bypass = .trailing ∧ x.stub = false then x.hold - 1 else x.hold)) ∧
      (∀ bid : BufId, activeBuf s ≠ some bid → outgoingBuf s ≠ some bid → buf t bid = buf s bid) ∧
      t.tne.tails.length = s.tne.tails.length ∧
      (∀ (i : Nat) (x y : Tail), s.tne.tails[i]? = some x → t.tne.tails[i]? = some y →
        y.index = x.index ∧ y.phase = x.phase ∧ y.marked = x.marked ∧ y.voice = { x.voice.advance with pos := y.voice.pos } ∧
        (x.phase = .ringing → y.hold = x.hold - 1 ∧ y.expired = (x.expired || decide (x.hold = 0))) ∧
        (x.phase = .decay → y.hold = x.hold ∧ y.expired = x.expired)) ∧
      (∀ (k : Nat) (x : Remnant), Mem.get none s.tne.remnants k = some x → ∃ y : Remnant, Mem.get none t.tne.remnants k = some y ∧
        y.kind = x.kind ∧ y.counted = x.counted ∧ y.voice = { x.voice.advance with pos := y.voice.pos }) ∧
      t.swc = s.swc ∧ t.rcu = s.rcu ∧ t.pst = s.pst ∧ t.pending = s.pending

/-- The detectors of a sample. A tuner channel filters the raw sample of its lane; its crossing detector arms below −32,768 and, armed, finds a
crossing at a sample at or above 0, at the time between the two samples that R80 gives; while the lane is SIGNAL the crossing goes to the crossing
record, whose ninth completes a span and begins the next, and otherwise it is dropped (R79, R80, R81). A SILENT lane returns to SIGNAL at a raw
sample of twice its threshold or more: on lanes 1 and 2 SILENCE is posted and the channel's measurement timer is restarted, on lanes 3..8 nothing
else happens (R14, R15, R82, R83); where no clip counter stands before its wrap, nothing else is posted. That the channel takes the sample after the
silence detector, and that lane 1 posts before lane 2, are the model's (logs 20 and 82).
A detector whose quiet count has reached 4,800 enters SILENT with count 0: on lanes 3..8 nothing else changes; on lanes 1 and 2 SILENCE is
posted, the tuner channel drops its crossing record, its timer stops and its lock machine goes to SEARCH, which a channel that was LOCKED
reports with its display HELD (R14, R15, R83, R92, R99). -/
def Obligations.SampleMovesDetectors : Prop :=
  (∀ (xs : List Sample24) (s : State), s.aup.clock = .running → settleAll s = s →
    let raw := fun k : Nat => if (inLane s k).loopback = 0 then (xs.getD (k - 1) 0).toInt else (outLane s (inLane s k).loopback).prev
    let silent := fun k : Nat => (inLane s k).silence.silent
    let returns := fun k : Nat => silent k && decide (2 * (inLane s k).cfg.threshold ≤ (raw k).natAbs)
    let told := fun (k : Nat) (u : State) => if returns k then post (.silence k false) u else u
    ∃ t : State, exec (.samplePeriod xs) s = .next t ∧
      (∀ ch : ChanId,
        let k := laneOf ch
        let c := chan s ch
        let y := c.y + (raw k - c.y) / 16
        let time := 16 * (c.n : Int) + 16 * (-c.yPrev) / (y - c.yPrev)
        let moved : Channel := { c with
          y := y, n := c.n + 1, yPrev := y, armed := if c.armed then decide (y < 0) else decide (y < -32768)
          timer := c.timer || returns k }
        let crosses := c.armed = true ∧ 0 ≤ y ∧ (silent k = false ∨ returns k = true)
        (¬ crosses → chan t ch = moved) ∧
        (crosses → c.record = none → chan t ch = { moved with record := some (time, 0) }) ∧
        (∀ (c₁ : Int) (n : Nat), crosses → c.record = some (c₁, n) → n < 7 → chan t ch = { moved with record := some (c₁, n + 1) }) ∧
        (∀ c₁ : Int, crosses → c.record = some (c₁, 7) →
          chan t ch = { moved with record := some (time, 0), span := some (time - c₁) })) ∧
      ((∀ j : Nat, j < 16 → Mem.get 0 s.lkc.counters j < 65535) →
        t.lkc = { (told 2 (told 1 s)).lkc with counters := t.lkc.counters })) ∧
  ∀ (k : Nat) (s : State), (inLane s k).silence = ⟨false, 4800⟩ →
    (2 < k → exec (.silentEntry k) s = .next (modInLane k (fun l => { l with silence := ⟨true, 0⟩ }) s)) ∧
    (∀ ch : ChanId, k = laneOf ch → ∃ t : State, exec (.silentEntry k) s = .next t ∧
      (inLane t k).silence = ⟨true, 0⟩ ∧ (chan t ch).lock = .search ∧ (chan t ch).record = none ∧ (chan t ch).timer = false ∧
      (∀ ch' : ChanId, ch' ≠ ch → chan t ch' = chan s ch') ∧
      ((∀ n c w, (chan s ch).lock ≠ .locked n c w) → t.lkc = (post (.silence k true) s).lkc ∧ (chan t ch).display = (chan s ch).display) ∧
      (∀ n c w, (chan s ch).lock = .locked n c w → (chan t ch).display = .held n c ∧
        t.lkc = (post (.tunerLock ch .search (.held n c)) (post (.silence k true) s)).lkc) ∧
      t.tne = s.tne ∧ t.tmp = s.tmp ∧ t.swc = s.swc ∧ t.rcu = s.rcu ∧ t.pst = s.pst ∧ t.acd = s.acd)

/-- LANE carries a direction, a lane and a presence byte, and for each of its bits 0 to 5 a field: the trim in two bytes, polarity, mute, the
silence threshold in two bytes, the loopback source, the source. The fields it carries are written into the lane's record, a trim clamped to
32,767 with CLAMPED, and no other lane changes. A direction past OUTPUT, a lane outside 1..8, a field the direction does not have, a code that
names nothing or a presence bit that names no field (by deduction, log 35) is BAD_FIELD with nothing changed (R1, R2, R9, R202). -/
def Obligations.LaneRequestWritesRecord : Prop :=
  ∀ (f : Frame) (s : State) (dir lane mask t₁ t₀ pol mute h₁ h₀ loop src : Byte), Room f.link s → MayEdit f.link s →
    let bit := fun k : Nat => mask.getLsbD k
    f.payload = [dir, lane, mask] ++ (if bit 0 then [t₁, t₀] else []) ++ (if bit 1 then [pol] else []) ++ (if bit 2 then [mute] else []) ++
      (if bit 3 then [h₁, h₀] else []) ++ (if bit 4 then [loop] else []) ++ (if bit 5 then [src] else []) →
    let k := lane.toNat
    let d := destOf f s
    let u := arrived f s
    let trim := 256 * t₁.toNat + t₀.toNat
    let note : Byte := if bit 0 = true ∧ 32767 < trim then 1 else 0
    let coded := k ≠ 0 ∧ k ≤ 8 ∧ mask.toNat < 64 ∧ (bit 1 = true → pol.toNat ≤ 1) ∧ (bit 2 = true → mute.toNat ≤ 1) ∧
      (bit 4 = true → loop.toNat ≤ 8) ∧ (bit 5 = true → src.toNat ≤ 3)
    let input := dir = 0 ∧ bit 5 = false
    let output := dir = 1 ∧ bit 3 = false ∧ bit 4 = false
    (coded → input → ∃ t : State, exec (.lane f) s = .next (answer (some d) .ok note .none t) ∧
      (let r := (inLane s k).cfg
       (inLane t k).cfg = {
         trim := if bit 0 then min 32767 trim else r.trim
         inverted := if bit 1 then decide (pol = 1) else r.inverted
         mute := if bit 2 then decide (mute = 1) else r.mute
         threshold := if bit 3 then 256 * h₁.toNat + h₀.toNat else r.threshold
         loopback := if bit 4 then loop.toNat else r.loopback }) ∧
      (∀ j : Nat, j ≠ k → inLane t j = inLane s j) ∧ t.aup.outLanes = s.aup.outLanes ∧ t = { u with aup := t.aup }) ∧
    (coded → output → ∃ t : State, exec (.lane f) s = .next (answer (some d) .ok note .none t) ∧
      (let r := (outLane s k).cfg
       (outLane t k).cfg = {
         source := if bit 5 then (if src = 0 then .engine else if src = 1 then .dry else if src = 2 then .tone else .zero) else r.source
         trim := if bit 0 then min 32767 trim else r.trim
         inverted := if bit 1 then decide (pol = 1) else r.inverted
         mute := if bit 2 then decide (mute = 1) else r.mute }) ∧
      (∀ j : Nat, j ≠ k → outLane t j = outLane s j) ∧ t.aup.inLanes = s.aup.inLanes ∧ t = { u with aup := t.aup }) ∧
    (¬(coded ∧ (input ∨ output)) → exec (.lane f) s = .next (answerCode (some d) .badField u))

/-- A lane's movements. A record that changes starts them. With no dip, a new gain target restarts the ramp over 256 samples, and a new polarity,
loopback or effective source starts a dip of 64 samples down to 0 and waits for its switch point; a record that changes nothing moves nothing. In
DOWN a change joins the dip in progress. In UP, on input and output lanes alike, a change starts a new DOWN from the gain reached, and with none
the rise goes on to the new target (log 7); a rise that is over counts as no dip, though its end has not been taken (the model's choice, log 2).
An output lane's effective source is its record's, and DRY on lanes 1..4 under the tune override (R6, R7, R8). The switch point of a lane's dip:
pending polarity, loopback and source take effect together, and the gain rises toward its target over 64 samples; the end of the rise ends the
dip. Other lanes and every other part stand (R6, R7). -/
def Obligations.LaneMovements : Prop :=
  (∀ (l : InLane) (c : InRec),
    let target : Int := if c.mute then 0 else c.trim
    let waits := fun (value new : Bool) => if new = value then none else some new
    (l.dip = .none → l.pendInverted = none → l.pendLoopback = none →
      (c.inverted = l.inverted → c.loopback = l.loopback →
        l.take c = { l with cfg := c, gain :=
          if target = l.gain.target then l.gain else { v := l.gain.v, target := target, count := 256 } }) ∧
      (c.inverted ≠ l.inverted ∨ c.loopback ≠ l.loopback → l.take c = { l with
        cfg := c, dip := .down, gain := { v := l.gain.v, target := 0, count := 64 }
        pendInverted := waits l.inverted c.inverted
        pendLoopback := if c.loopback = l.loopback then none else some c.loopback })) ∧
    (l.dip = .down → l.take c = { l with
      cfg := c
      pendInverted := if l.pendInverted = none ∧ c.inverted = l.inverted then none else some c.inverted
      pendLoopback := if l.pendLoopback = none ∧ c.loopback = l.loopback then none else some c.loopback }) ∧
    (l.dip = .up → 0 < l.gain.count → l.pendInverted = none → l.pendLoopback = none →
      (c.inverted = l.inverted → c.loopback = l.loopback → l.take c = { l with cfg := c, gain := { l.gain with target := target } }) ∧
      (c.inverted ≠ l.inverted ∨ c.loopback ≠ l.loopback → l.take c = { l with
        cfg := c, dip := .down, gain := { v := l.gain.v, target := 0, count := 64 }
        pendInverted := waits l.inverted c.inverted
        pendLoopback := if c.loopback = l.loopback then none else some c.loopback })) ∧
    (l.dip = .up → l.gain.count = 0 → l.take c = ({ l with dip := .none } : InLane).take c)) ∧
  (∀ (l : OutLane) (c : OutRec) (override : Bool) (k : Nat),
    let target : Int := if c.mute then 0 else c.trim
    let want : Source := if override = true ∧ k ≤ 4 then .dry else c.source
    (l.dip = .none → l.pendInverted = none → l.pendSource = none →
      (c.inverted = l.inverted → want = l.source →
        l.take override k c = { l with cfg := c, gain :=
          if target = l.gain.target then l.gain else { v := l.gain.v, target := target, count := 256 } }) ∧
      (c.inverted ≠ l.inverted ∨ want ≠ l.source → l.take override k c = { l with
        cfg := c, dip := .down, gain := { v := l.gain.v, target := 0, count := 64 }
        pendInverted := if c.inverted = l.inverted then none else some c.inverted
        pendSource := if want = l.source then none else some want })) ∧
    (l.dip = .down → l.take override k c = { l with
      cfg := c
      pendInverted := if l.pendInverted = none ∧ c.inverted = l.inverted then none else some c.inverted
      pendSource := if l.pendSource = none ∧ want = l.source then none else some want }) ∧
    (l.dip = .up → 0 < l.gain.count → l.pendInverted = none → l.pendSource = none →
      (c.inverted = l.inverted → want = l.source →
        l.take override k c = { l with cfg := c, gain := { l.gain with target := target } }) ∧
      (c.inverted ≠ l.inverted ∨ want ≠ l.source → l.take override k c = { l with
        cfg := c, dip := .down, gain := { v := l.gain.v, target := 0, count := 64 }
        pendInverted := if c.inverted = l.inverted then none else some c.inverted
        pendSource := if want = l.source then none else some want })) ∧
    (l.dip = .up → l.gain.count = 0 → l.take override k c = ({ l with dip := .none } : OutLane).take override k c)) ∧
  (∀ (k : Nat) (s : State),
    ((inLane s k).dip = .down → (inLane s k).gain.count = 0 → exec (.laneDipSwitchPoint .input k) s =
      .next (modInLane k (fun l => { l with
        inverted := l.pendInverted.getD l.inverted, loopback := l.pendLoopback.getD l.loopback
        pendInverted := none, pendLoopback := none, dip := .up
        gain := { v := l.gain.v, target := if l.cfg.mute then 0 else l.cfg.trim, count := 64 } }) s)) ∧
    ((outLane s k).dip = .down → (outLane s k).gain.count = 0 → exec (.laneDipSwitchPoint .output k) s =
      .next (modOutLane k (fun l => { l with
        inverted := l.pendInverted.getD l.inverted, source := l.pendSource.getD l.source
        pendInverted := none, pendSource := none, dip := .up
        gain := { v := l.gain.v, target := if l.cfg.mute then 0 else l.cfg.trim, count := 64 } }) s)) ∧
    ((inLane s k).dip = .up → (inLane s k).gain.count = 0 →
      exec (.laneDipEnd .input k) s = .next (modInLane k (fun l => { l with dip := .none }) s)) ∧
    ((outLane s k).dip = .up → (outLane s k).gain.count = 0 →
      exec (.laneDipEnd .output k) s = .next (modOutLane k (fun l => { l with dip := .none }) s)) ∧
    (∀ (g : InLane → InLane) (j : Nat), j ≠ k → inLane (modInLane k g s) j = inLane s j) ∧
    (∀ (g : OutLane → OutLane) (j : Nat), j ≠ k → outLane (modOutLane k g s) j = outLane s j)) ∧
  ∀ (f : Frame) (s : State), Room f.link s →
    let moved := fun (want : Source) (l : OutLane) =>
      if want = l.source then l
      else { l with pendSource := some want, dip := .down, gain := { v := l.gain.v, target := 0, count := 64 } }
    (∀ c e : Byte, c.toNat ≤ 2 → e.toNat ≤ 1 → f.payload = [0, 7, c, 1, e] → s.aup.override = false →
      ∃ t : State, exec (.tune f) s = .next t ∧ t.aup.override = true ∧
        (∀ k : Nat, 1 ≤ k → k ≤ 4 → (outLane s k).pendSource = none → (outLane s k).dip ≠ .down →
          outLane t k = moved .dry (outLane s k)) ∧
        (∀ k : Nat, 5 ≤ k → outLane t k = outLane s k)) ∧
    (f.payload = [1, 0] → s.aup.override = true → ∃ t : State, exec (.tune f) s = .next t ∧ t.aup.override = false ∧
        (∀ k : Nat, 1 ≤ k → k ≤ 4 → (outLane s k).pendSource = none → (outLane s k).dip ≠ .down →
          outLane t k = moved (outLane s k).cfg.source (outLane s k)) ∧
        (∀ k : Nat, 5 ≤ k → outLane t k = outLane s k))

/-! ## Tone Engine -/

/-- A chain as it is set up for a scene, scene 0 where it holds no such scene (R48). A slot's running values are in its parameters' ranges: the
value of the last live entry of the controller map that finds the parameter (R57), else that of the scene's last override for it, else the
parameter set's. Every ramp stands at its target with count 0: the C-class quantities as their kinds hold them, the delay clamped to its line
(R30, R33; with no region 1, the model's choice, log 85), the two gains of a mix, the input gain, the dip with no change pending, and the engage
ramp of the bypass state, which is the default one or, where the scene's bypass set names the slot, its opposite (R49). Histories and counts are
0, the gate is OPEN, and THRU is decided from the tables and the granted pages (R34, R37, R39, R40, R44). A slot keeps its kind, flags, parameter
set, region and write positions, and the chain every other field. -/
def Obligations.ChainSetUp : Prop :=
  ∀ (t : Tne) (m : Lma) (beat scene : Nat) (c : Chain),
    let n := if scene < c.scenes.length then scene else 0
    let sc := c.scenes.getD n {}
    let k := setupChain t m beat scene c
    k = { c with scene := n, slots := k.slots } ∧ k.slots.length = c.slots.length ∧
    ∀ (i : Nat) (sl : Slot), c.slots[i]? = some sl → ∃ y : Slot, k.slots[i]? = some y ∧
      let finds := fun (q j : Nat) (x : Int) => MapFinds t c.slots i q j sl x
      y.run.length = sl.kind.params.length ∧
      (∀ (j : Nat) (cls : ParamClass) (least most : Int), sl.kind.params[j]? = some (cls, least, most) →
        let is := fun x : Int => y.run.getD j 0 = max least (min most x)
        (∀ (q : Nat) (x : Int), finds q j x → (∀ q' x', q < q' → ¬finds q' j x') → is x) ∧
        ((∀ q x, ¬finds q j x) → ∀ x : Int, SceneAsks sc i j sl x → is x)) ∧
      let p := fun j : Nat => y.run.getD j 0
      let off := if sc.bypass.getLsbD i then !sl.defBypass else sl.defBypass
      let len : Int := 1024 * (regionPages m sl.voice.region).length
      let asked := if p 1 = 0 then p 0 * 48 else if p 1 = 1 then (beat : Int) else if p 1 = 2 then beat * 3 / 4 else if p 1 = 3 then beat / 2
        else if p 1 = 4 then beat / 3 else if p 1 = 5 then beat / 4 else beat * 2
      let mix := if sl.kind = .mod then p 2 else if sl.kind = .delay then p 4 else p 1
      y = { sl with
        run := y.run, voice := y.voice, dip := ⟨8192, 8192, 0⟩, dipPhase := .none, changes := [], hold := 0, falling := false
        mixStored := false, hist := [], gateOpen := true, quiet := 0, lfo := 0, stub := false, thru := y.thru
        engage := if off then ⟨0, 0, 0⟩ else ⟨8192, 8192, 0⟩, bypass := if off then .bypassed else .engaged } ∧
      (y.thru = true ↔ RunsThru t m y) ∧
      y.voice = { sl.voice with a := y.voice.a, b := y.voice.b, dry := y.voice.dry, wet := y.voice.wet, input := ⟨8192, 8192, 0⟩ } ∧
      (sl.kind = .mod ∨ sl.kind = .delay ∨ sl.kind = .reverb →
        y.voice.dry = ⟨(1023 - mix) * 8, (1023 - mix) * 8, 0⟩ ∧ y.voice.wet = ⟨mix * 8, mix * 8, 0⟩) ∧
      (sl.kind = .trim ∨ sl.kind = .drive ∨ sl.kind = .amp ∨ sl.kind = .loop → y.voice.a = ⟨p 0 * 32, p 0 * 32, 0⟩) ∧
      (sl.kind = .gate ∨ sl.kind = .mod → y.voice.a = ⟨p 0, p 0, 0⟩) ∧
      (sl.kind = .delay → y.voice.a = (let d := max 1 (min (len - 1) asked); ⟨d, d, 0⟩) ∧ y.voice.b = ⟨p 3 * 8, p 3 * 8, 0⟩) ∧
      (sl.kind = .gate → y.voice.b = ⟨8192, 8192, 0⟩) ∧
      (sl.kind = .drive → y.voice.b = ⟨p 2 * 32, p 2 * 32, 0⟩) ∧
      (sl.kind = .amp → y.voice.b = ⟨p 3 * 32, p 3 * 32, 0⟩) ∧
      (sl.kind = .cab ∨ sl.kind = .eq ∨ sl.kind = .loop → y.voice.b = ⟨p 1 * 32, p 1 * 32, 0⟩) ∧
      (sl.kind = .mod → y.voice.b = ⟨p 1, p 1, 0⟩) ∧
      (sl.kind = .reverb → y.voice.b = ⟨4096 + p 0 * 4, 4096 + p 0 * 4, 0⟩) ∧
      (sl.kind = .level → y.voice.b = ⟨p 0 * 32, p 0 * 32, 0⟩)

/-- A block boundary: in the ACTIVE and the OUTGOING buffer, whichever there are, the slots with pending changes start their dips, unless they are
in DOWN, and so do those of an incoming buffer that edits already reach (R145); the load is the cost of the ACTIVE chain, of the OUTGOING chain
while FADING, of the tails and of the remnants; a block that clipped gives one event to the chain saturation counter. Without a boundary to
take nothing changes (R20, R44, R59). -/
def Obligations.BlockBoundaryStartsDips : Prop :=
  ∀ s : State,
    let dipped := fun sl : Slot => if sl.changes = [] ∨ sl.dipPhase = .down then sl
      else { sl with dip := { v := sl.dip.v, target := 0, count := 64 }, dipPhase := .down }
    let cost := fun (o : Option BufId) => match o with
      | none => 0
      | some bid => ((buf s bid).chain.slots.map (fun sl => if sl.stub then 0 else sl.kind.cost)).sum
    (s.tne.boundaryDue = true → s.aup.clock = .running → s.tne.blockPos = 0 → s.rcu.joinedDue = false →
      ∃ t : State, exec .blockBoundary s = .next t ∧
        t.tne.boundaryDue = false ∧ t.tne.blockClip = false ∧
        (∀ bid : BufId, buf t bid =
          if activeBuf s = some bid ∨ outgoingBuf s = some bid ∨ editBuf s = some bid then
            { buf s bid with chain := { (buf s bid).chain with slots := (buf s bid).chain.slots.map dipped } }
          else buf s bid) ∧
        t.tne.load = cost (activeBuf s) + (if s.rcu.state = .fading then cost (outgoingBuf s) else 0) +
          (s.tne.tails.map (fun tl => tl.kind.cost)).sum + ((remnantList s.tne).map (fun g => g.kind.cost)).sum ∧
        (∀ j : Nat, Mem.get 0 t.lkc.counters j =
          if j = 16 ∧ s.tne.blockClip = true then
            (if Mem.get 0 s.lkc.counters 16 < 65535 then Mem.get 0 s.lkc.counters 16 + 1 else 0)
          else Mem.get 0 s.lkc.counters j) ∧
        t.tne.tails = s.tne.tails ∧ t.tne.mute = s.tne.mute ∧ t.tne.curves = s.tne.curves ∧
        t.aup = s.aup ∧ t.lma = s.lma ∧ t.tun = s.tun ∧ t.tmp = s.tmp ∧ t.swc = s.swc ∧ t.rcu = s.rcu ∧ t.pst = s.pst ∧ t.acd = s.acd) ∧
    ((s.tne.boundaryDue = false ∨ s.aup.clock ≠ .running ∨ s.tne.blockPos ≠ 0) → exec .blockBoundary s = .next s)

/-- The switch point of a slot's dip: the pending values take effect in the order they were put, the list is empty, the biquad histories are 0,
THRU is decided again, and the dip rises to 8192 over 64 samples; a DELAY's new sync restarts its delay ramp over 512, toward 1 where it has no
region (the model's choice, log 85). The end of the rise ends the dip. A change of one slot touches no other slot and no other buffer (R41, R44).
That the histories of a slot with a filter set are 0 after every one of its switch points, whatever the changes are, is deduced (log 25). -/
def Obligations.SlotDipTakesChanges : Prop :=
  ∀ (bid : BufId) (i : Nat) (s : State) (sl : Slot), slotAt s bid i = some sl →
    let turned := fun (x : Slot) => { x with
      changes := [], hist := (if sl.kind = .amp ∨ sl.kind = .cab ∨ sl.kind = .eq then [] else sl.hist)
      dip := ({ v := sl.dip.v, target := 8192, count := 64 } : Ramp), dipPhase := .up }
    let run := sl.changes.foldl (fun r c => match c with | .param j v => r.set j v | .table _ => r) sl.run
    (sl.dipPhase = .down → sl.dip.count = 0 → (∀ c ∈ sl.changes, ∃ j v, c = .param j v) → sl.kind ≠ .delay →
      exec (.slotDipSwitchPoint bid i) s =
        .next (modSlot bid i (fun _ => turned { sl with run := run, thru := slotThru s.tne s.lma { sl with run := run } }) s)) ∧
    (∀ v : Int, sl.dipPhase = .down → sl.dip.count = 0 → sl.kind = .delay → sl.changes = [.param 1 v] → 1 < sl.run.length →
      exec (.slotDipSwitchPoint bid i) s =
        .next (modSlot bid i (fun _ => turned { sl with
          run := sl.run.set 1 v, thru := decide ((regionPages s.lma sl.voice.region).length = 0)
          voice := { sl.voice with a := {
            v := sl.voice.a.v, count := 512
            target := clampInt 1 (max 1 ((regionLen s.lma sl.voice.region : Int) - 1))
              (if v = 0 then sl.run.getD 0 0 * 48 else syncLength s.tmp.beat v) } } }) s)) ∧
    (sl.dipPhase = .up → sl.dip.count = 0 →
      exec (.slotDipEnd bid i) s = .next (modSlot bid i (fun _ => { sl with dipPhase := .none }) s)) ∧
    (∀ (x : Slot) (j : Nat), slotAt (modSlot bid i (fun _ => x) s) bid j = if j = i then some x else slotAt s bid j) ∧
    (∀ x : Slot, buf (modSlot bid i (fun _ => x) s) (otherBuf bid) = buf s (otherBuf bid))

/-- The change boundary of a table with incoming contents: with no processed slot that names it they become current at once; otherwise 64 samples
are left of the change, and every slot of the ACTIVE and the OUTGOING buffer that names the table starts a dip with the change on its list. With
none left the contents become current, and every processed slot that then names the table has its THRU state decided anew and, for a filter set,
its histories 0. No other table changes (R37, R46). That the contents become current 64 samples after the table's own change boundary even where
another table has moved a slot's switch point on, and that slots which came to name the table since then follow it, is the model's choice (log
46). -/
def Obligations.TableChangeAtBoundary : Prop :=
  ∀ (i : Nat) (s : State), s.aup.clock = .running → s.tne.blockPos = 0 →
    let slots := fun (t : State) (g : Slot → Slot) => ∀ bid : BufId, buf t bid =
      if activeBuf s = some bid ∨ outgoingBuf s = some bid then
        { buf s bid with chain := { (buf s bid).chain with slots := (buf s bid).chain.slots.map g } }
      else buf s bid
    let started := fun (r : TableRef) (t : State) => slots t (fun sl =>
      if namesTable r sl ∧ sl.stub = false then
        { sl with dip := { v := sl.dip.v, target := 0, count := 64 }, dipPhase := .down, changes := sl.changes ++ [.table r] }
      else sl) ∧ t = { s with tne := t.tne }
    (∀ (c : Curve) (x : Option (List Int)), Mem.get {} s.tne.curves i = c → c.incoming = some x →
      let only := fun (t : State) => (∀ j : Nat, j ≠ i → Mem.get {} t.tne.curves j = Mem.get {} s.tne.curves j) ∧
        t.tne.filters = s.tne.filters
      (c.left = none → tableInUse (.curve i) s = false → exec (.tableChangeBoundary (.curve i)) s =
        .next { s with tne := { s.tne with curves := Mem.set {} s.tne.curves i { c with current := x, incoming := none } } }) ∧
      (c.left = none → tableInUse (.curve i) s = true → ∃ t : State, exec (.tableChangeBoundary (.curve i)) s = .next t ∧
        Mem.get {} t.tne.curves i = { c with left := some 64 } ∧ started (.curve i) t ∧ only t) ∧
      (c.left = some 0 → ∃ t : State, exec (.tableChangeBoundary (.curve i)) s = .next t ∧
        Mem.get {} t.tne.curves i = { c with current := x, incoming := none, left := none } ∧ only t ∧ t = { s with tne := t.tne } ∧
        slots t (fun sl => if namesTable (.curve i) sl ∧ sl.stub = false then { sl with thru := slotThru t.tne s.lma sl } else sl))) ∧
    (∀ (c : FilterSet) (x : Option (List Biquad)), Mem.get {} s.tne.filters i = c → c.incoming = some x →
      let only := fun (t : State) => (∀ j : Nat, j ≠ i → Mem.get {} t.tne.filters j = Mem.get {} s.tne.filters j) ∧
        t.tne.curves = s.tne.curves
      (c.left = none → tableInUse (.filterSet i) s = false → exec (.tableChangeBoundary (.filterSet i)) s =
        .next { s with tne := { s.tne with filters := Mem.set {} s.tne.filters i { c with current := x, incoming := none } } }) ∧
      (c.left = none → tableInUse (.filterSet i) s = true → ∃ t : State, exec (.tableChangeBoundary (.filterSet i)) s = .next t ∧
        Mem.get {} t.tne.filters i = { c with left := some 64 } ∧ started (.filterSet i) t ∧ only t) ∧
      (c.left = some 0 → ∃ t : State, exec (.tableChangeBoundary (.filterSet i)) s = .next t ∧
        Mem.get {} t.tne.filters i = { c with current := x, incoming := none, left := none } ∧ only t ∧ t = { s with tne := t.tne } ∧
        slots t (fun sl => if namesTable (.filterSet i) sl ∧ sl.stub = false then
          { sl with thru := slotThru t.tne s.lma sl, hist := [] } else sl)))

/-- GATE_CLOSE, TRAIL_HOLD_EXPIRY and TRAIL_END move the one slot they fall on: a gate whose quiet count is 480 closes over release × 48 samples;
a TRAILING slot whose hold is out lets its wet gain fall over 256; with the wet gain at rest it is BYPASSED with engage 0, input gain 8192
and the gains of its mix, so that no stored mix is left to take up. BUS_MUTED_NOTICE drops a MUTING bypass relay (R39, R50, R58, R185). -/
def Obligations.SlotAndBusEventsMove : Prop :=
  (∀ (bid : BufId) (i : Nat) (s : State) (sl : Slot), slotAt s bid i = some sl →
    (sl.kind = .gate → sl.gateOpen = true → sl.quiet = 480 → 0 < sl.run.getD 1 0 → exec (.gateClose bid i) s =
      .next (modSlot bid i (fun _ => { sl with
        gateOpen := false, quiet := 0
        voice := { sl.voice with b := { v := sl.voice.b.v, target := 0, count := (sl.run.getD 1 0).toNat * 48 } } }) s)) ∧
    (sl.bypass = .trailing → sl.stub = false → sl.hold = 0 → sl.falling = false → exec (.trailHoldExpiry bid i) s =
      .next (modSlot bid i (fun _ => { sl with
        falling := true, voice := { sl.voice with wet := { v := sl.voice.wet.v, target := 0, count := 256 } } }) s)) ∧
    (∀ m : Int, sl.bypass = .trailing → sl.stub = false → sl.falling = true → sl.voice.wet.count = 0 →
      ((sl.kind = .delay ∧ m = sl.run.getD 4 0) ∨ (sl.kind = .reverb ∧ m = sl.run.getD 1 0)) → exec (.trailEnd bid i) s =
      .next (modSlot bid i (fun _ => { sl with
        bypass := .bypassed, falling := false, mixStored := false, engage := ⟨0, 0, 0⟩
        voice := { sl.voice with
          input := ⟨8192, 8192, 0⟩, dry := ⟨(1023 - m) * 8, (1023 - m) * 8, 0⟩, wet := ⟨m * 8, m * 8, 0⟩ } }) s))) ∧
  (∀ s : State, s.tne.busNotice = true → s.tne.muteRamp.v = 0 → s.tne.muteRamp.count = 0 →
    (s.acd.relay = .muting → exec .busMutedNotice s =
      .next (post (.bypassState false .out s.acd.conds s.acd.manual)
        { s with tne := { s.tne with busNotice := false }, acd := { s.acd with relay := .out } })) ∧
    (s.acd.relay ≠ .muting → exec .busMutedNotice s = .next { s with tne := { s.tne with busNotice := false } }))

/-- SET_PARAM on a buffer: the value, clamped to its range with CLAMPED, is stored in the current scene's last override for the parameter or else
in the parameter set; a C-class value runs at once, its ramp restarted over 512 toward the quantity the kind holds: the gains of TRIM, DRIVE, AMP,
CAB, EQ, LOOP and LEVEL, the GATE threshold, the rate and depth of MOD, the feedback of DELAY, the comb gain of REVERB, the mixes, and the time of
a DELAY, clamped to its region, while its sync is 0, a time under another sync moving none (R30, R33, R36, R41; with no region the target is 1,
the model's choice, log 85). A D-class value joins the pending changes, an S-class value is written; a mix that comes while the slot is not
ENGAGED moves no ramp and is stored for the engage to take up (R50), and that a mix with the running value counts as stored too is deduced (log
23); the edited flag is set; nothing else changes. NOT_READY with no buffer; BAD_FIELD past the chain or the kind (R44, R52). -/
def Obligations.SetParamWritesValue : Prop :=
  ∀ (f : Frame) (s : State) (slot i hi lo : Byte), Room f.link s → MayEdit f.link s → f.payload = [slot, i, hi, lo] →
    let d := destOf f s
    let u := arrived f s
    (editBuf s = none → exec (.setParam f) s = .next (answerCode (some d) .notReady u)) ∧
    (∀ bid : BufId, editBuf s = some bid →
      ((buf s bid).chain.slots.length ≤ slot.toNat → exec (.setParam f) s = .next (answerCode (some d) .badField u)) ∧
      (∀ sl : Slot, slotAt s bid slot.toNat = some sl →
        (sl.kind.params.length ≤ i.toNat → exec (.setParam f) s = .next (answerCode (some d) .badField u)) ∧
        (∀ (cls : ParamClass) (least most : Int), sl.kind.params[i.toNat]? = some (cls, least, most) →
          let x : Int := if sl.kind = .gate ∧ i = 0 then (256 * hi.toNat + lo.toNat : Nat) else (hi ++ lo).toInt
          let v := if x < least then least else if most < x then most else x
          let held := fun (o : Override) => o.slot = slot.toNat ∧ o.param = i.toNat
          let sc := (buf s bid).chain.scenes.getD (buf s bid).chain.scene {}
          ∃ (t : State) (y : Slot), exec (.setParam f) s = .next (answer (some d) .ok (if v = x then 0 else 1) .none t) ∧
            slotAt t bid slot.toNat = some y ∧
            (∀ j : Nat, j ≠ slot.toNat → slotAt t bid j = slotAt s bid j) ∧
            y = { sl with params := y.params, run := y.run, voice := y.voice, changes := y.changes, mixStored := y.mixStored } ∧
            buf t bid = { buf s bid with editedSince := true, chain := { (buf s bid).chain with
              edited := true, slots := (buf t bid).chain.slots, scenes := (buf t bid).chain.scenes } } ∧
            t.tne = { s.tne with bufA := t.tne.bufA, bufB := t.tne.bufB } ∧ buf t (otherBuf bid) = buf s (otherBuf bid) ∧
            (s.rcu.state ≠ .fading → t.rcu = { s.rcu with ident := { s.rcu.ident with edited := true } }) ∧
            (s.rcu.state = .fading → t.rcu = s.rcu) ∧
            t.aup = s.aup ∧ t.lma = s.lma ∧ t.tun = s.tun ∧ t.tmp = s.tmp ∧ t.swc = s.swc ∧ t.pst = s.pst ∧ t.acd = s.acd ∧ t.lkc = u.lkc ∧
            ((∀ o ∈ sc.overrides, ¬held o) → y.params = sl.params.set i.toNat v ∧ (buf t bid).chain.scenes = (buf s bid).chain.scenes) ∧
            (∀ (before after : List Override) (o : Override), sc.overrides = before ++ o :: after → held o → (∀ a ∈ after, ¬held a) →
              (buf s bid).chain.scene < (buf s bid).chain.scenes.length →
              y.params = sl.params ∧ ((buf t bid).chain.scenes.getD (buf s bid).chain.scene {}).overrides =
                before ++ { o with value := v } :: after) ∧
            (cls ≠ .discrete → y.run = sl.run.set i.toNat v ∧ y.changes = sl.changes) ∧
            (cls = .discrete → y.run = sl.run ∧
              y.changes = if pendingValue sl i.toNat = v then sl.changes else sl.changes ++ [.param i.toNat v]) ∧
            (cls ≠ .continuous → y.voice = sl.voice ∧ y.mixStored = sl.mixStored) ∧
            (cls = .continuous → Ramped (regionPages s.lma sl.voice.region).length 512 sl y i.toNat v))))

/-- SLOT_BYPASS by R50's table: ON bypasses, OFF engages, TOGGLE takes the other of engaged and not engaged; the current scene's bypass set then
names the slot exactly when its state is not its default, and names the other slots as before; the edited flag is set (R50, R53). With no buffer
the answer is NOT_READY whatever the operation is (the order is deduced, log 35). That a wet or engage ramp still moving as the slot becomes
TRAILING is left to run on is the model's choice (log 69). A BYPASSED slot that is engaged restarts its engage ramp alone, and its mix gains only
where a mix has arrived meanwhile; that they then take the engage's 256 samples is deduced (log 23). -/
def Obligations.SlotBypassMovesSlot : Prop :=
  ∀ (f : Frame) (s : State) (slot op : Byte), Room f.link s → MayEdit f.link s → f.payload = [slot, op] →
    let d := destOf f s
    let u := arrived f s
    (editBuf s = none → exec (.slotBypass f) s = .next (answerCode (some d) .notReady u)) ∧
    (∀ bid : BufId, editBuf s = some bid →
      ((buf s bid).chain.slots.length ≤ slot.toNat ∨ 2 < op.toNat → exec (.slotBypass f) s = .next (answerCode (some d) .badField u)) ∧
      (∀ sl : Slot, slotAt s bid slot.toNat = some sl → op.toNat ≤ 2 →
        let off : Bool := if op = 0 then true else if op = 1 then false else decide (sl.bypass = .engaged)
        ∃ (t : State) (y : Slot), exec (.slotBypass f) s = .next (answer (some d) .ok 0 .none t) ∧
          slotAt t bid slot.toNat = some y ∧ (∀ j : Nat, j ≠ slot.toNat → slotAt t bid j = slotAt s bid j) ∧
          buf t bid = { buf s bid with editedSince := true, chain := { (buf s bid).chain with
            edited := true, slots := (buf t bid).chain.slots, scenes := (buf t bid).chain.scenes } } ∧
          t.tne = { s.tne with bufA := t.tne.bufA, bufB := t.tne.bufB } ∧ buf t (otherBuf bid) = buf s (otherBuf bid) ∧
          t.aup = s.aup ∧ t.lma = s.lma ∧ t.tun = s.tun ∧ t.tmp = s.tmp ∧ t.swc = s.swc ∧ t.pst = s.pst ∧ t.acd = s.acd ∧ t.lkc = u.lkc ∧
          (∀ k : Nat, slot.toNat < 16 → (buf s bid).chain.scene < (buf s bid).chain.scenes.length →
            ((buf t bid).chain.scenes.getD (buf s bid).chain.scene {}).bypass.getLsbD k =
              if k = slot.toNat then xor off sl.defBypass
              else ((buf s bid).chain.scenes.getD (buf s bid).chain.scene {}).bypass.getLsbD k) ∧
          BypassMoves off sl y))

/-- CURVE and FILTER_SET: entries go into the staging table from their index on, START clears the written set first, and the request that
makes the set full gives the incoming contents and clears it; FILTER_SET gives its sections whole; a CLEAR gives ABSENT as incoming
contents. No other table changes. An index past the tables, a count of 0 or above 80, entries that would pass 256, a START above 1 and a section
count of 0 or above 6 are BAD_FIELD with nothing changed (R45, R202). -/
def Obligations.TableRequestsQueueContents : Prop :=
  ∀ (f : Frame) (s : State), Room f.link s → MayEdit f.link s →
    let d := destOf f s
    let u := arrived f s
    (∀ (k start : Byte) (first : Nat) (xs : List (BitVec 24)), k.toNat < 16 → start.toNat ≤ 1 → 0 < xs.length → xs.length ≤ 80 →
      first + xs.length ≤ 257 →
      f.payload = [k, 0, b8 (first / 256), b8 first, b8 xs.length, start] ++ xs.flatMap (fun x => bytes24 x.toNat) →
      let c := Mem.get {} s.tne.curves k.toNat
      ∃ (t : State) (y : Curve), exec (.curveLoad f) s =
          .next (answer (some d) .ok 0 (.curve y.current.isSome y.incoming.isSome y.written.length) t) ∧
        t = { u with tne := { s.tne with curves := t.tne.curves } } ∧ Mem.get {} t.tne.curves k.toNat = y ∧
        (∀ j : Nat, j ≠ k.toNat → Mem.get {} t.tne.curves j = Mem.get {} s.tne.curves j) ∧
        (∀ j : Nat, Mem.get 0 y.staging j =
          if first ≤ j ∧ j < first + xs.length then (xs.getD (j - first) 0).toInt else Mem.get 0 c.staging j) ∧
        y.current = c.current ∧ y.left = c.left ∧
        (let fits := fun (j : Nat) => first ≤ j ∧ j < first + xs.length
         let all := some (some ((List.range 257).map (Mem.get 0 y.staging)))
         (start = 1 → y.incoming = c.incoming ∧ ∀ j : Nat, j ∈ y.written ↔ fits j) ∧
         (start = 0 → c.written = List.range first → first + xs.length < 257 →
           y.incoming = c.incoming ∧ y.written = List.range (first + xs.length)) ∧
         (start = 0 → c.written = List.range first → first + xs.length = 257 → y.incoming = all ∧ y.written = []) ∧
         ((y.incoming = c.incoming ∧ ∀ j : Nat, j ∈ y.written ↔ fits j ∨ (start = 0 ∧ j ∈ c.written)) ∨
           (y.incoming = all ∧ y.written = [])))) ∧
    (∀ k : Byte, k.toNat < 16 → f.payload = [k, 1] →
      let c := Mem.get {} s.tne.curves k.toNat
      exec (.curveClear f) s = .next (answer (some d) .ok 0 (.curve c.current.isSome true 0)
        { u with tne := { s.tne with curves := Mem.set {} s.tne.curves k.toNat { c with incoming := some none, written := [] } } })) ∧
    (∀ (k : Byte) (qs : List (BitVec 16 × BitVec 16 × BitVec 16 × BitVec 16 × BitVec 16)), k.toNat < 32 → 0 < qs.length → qs.length ≤ 6 →
      f.payload = [k, 0, b8 qs.length] ++ qs.flatMap (fun q =>
        bytes16 q.1.toNat ++ bytes16 q.2.1.toNat ++ bytes16 q.2.2.1.toNat ++ bytes16 q.2.2.2.1.toNat ++ bytes16 q.2.2.2.2.toNat) →
      let c := Mem.get {} s.tne.filters k.toNat
      let sections : List Biquad := qs.map (fun q => ⟨q.1.toInt, q.2.1.toInt, q.2.2.1.toInt, q.2.2.2.1.toInt, q.2.2.2.2.toInt⟩)
      exec (.filterSetLoad f) s = .next (answer (some d) .ok 0 (.filterSet c.current.isSome true)
        { u with tne := { s.tne with filters := Mem.set {} s.tne.filters k.toNat { c with incoming := some (some sections) } } })) ∧
    (∀ k : Byte, k.toNat < 32 → f.payload = [k, 1] →
      let c := Mem.get {} s.tne.filters k.toNat
      exec (.filterSetClear f) s = .next (answer (some d) .ok 0 (.filterSet c.current.isSome true)
        { u with tne := { s.tne with filters := Mem.set {} s.tne.filters k.toNat { c with incoming := some none } } })) ∧
    (∀ (k start fhi flo n : Byte) (body : List Byte), body.length = 3 * n.toNat → f.payload = [k, 0, fhi, flo, n, start] ++ body →
      15 < k.toNat ∨ n = 0 ∨ 80 < n.toNat ∨ 257 < 256 * fhi.toNat + flo.toNat + n.toNat ∨ 1 < start.toNat →
      exec (.curveLoad f) s = .next (answerCode (some d) .badField u)) ∧
    (∀ (k n : Byte) (body : List Byte), body.length = 10 * n.toNat → f.payload = [k, 0, n] ++ body →
      31 < k.toNat ∨ n = 0 ∨ 6 < n.toNat → exec (.filterSetLoad f) s = .next (answerCode (some d) .badField u)) ∧
    (∀ k : Byte, 16 ≤ k.toNat → f.payload = [k, 1] → exec (.curveClear f) s = .next (answerCode (some d) .badField u)) ∧
    (∀ k : Byte, 32 ≤ k.toNat → f.payload = [k, 1] → exec (.filterSetClear f) s = .next (answerCode (some d) .badField u))

/-- CTRL_MAP writes NONE into one entry, or an entry of any listed source, kind, occurrence and C-class parameter with its ends clamped to the
parameter's range; an entry past 7, another source, kind or occurrence, and a parameter that the kind lacks or that is not of class C, is
BAD_FIELD. PEDAL sets the value of P0 or P1, clamped to 1023; every entry with that source is then applied to the buffer edits reach in index
order: the value its ends give, in the parameter's range, becomes the running value of the slot the entry finds there, and its ramp is restarted
over 128. An entry that finds no slot, and every entry where there is no buffer, is skipped (R55, R56). That a NONE entry takes no notice of its
other bytes (log 36), that a value equal to the one before is applied all the same (log 21), and that a mix which comes while the slot is not
ENGAGED is stored for the engage, one with the running value among them (log 23), is deduced; that the CC number of an entry for P0 or P1 is
disregarded, and the target 1 of a DELAY without a region, is the model's choice (logs 68 and 85). -/
def Obligations.MapAndPedalRequests : Prop :=
  ∀ (f : Frame) (s : State), Room f.link s →
    let d := destOf f s
    let u := arrived f s
    (∀ (k : Byte) (rest : List Byte), MayEdit f.link s → k.toNat < 8 → rest.length = 8 → f.payload = k :: 0 :: rest →
      exec (.ctrlMap f) s = .next (answer (some d) .ok 0 .none
        { u with tne := { s.tne with ctrlMap := Mem.drop s.tne.ctrlMap k.toNat } })) ∧
    (∀ k src cc kc occ par a₁ a₀ b₁ b₀ : Byte, MayEdit f.link s → k.toNat < 8 → src ≠ 0 →
      f.payload = [k, src, cc, kc, occ, par, a₁, a₀, b₁, b₀] →
      let source := if src = 1 then some MapSource.p0 else if src = 2 then some .p1
        else if src = 3 ∧ cc.toNat < 120 then some (.cc cc.toNat) else none
      let kind := ([none, some .trim, some .gate, some .drive, some .amp, some .cab, some .eq, some .mod, some .delay, some .reverb,
        some .loop, some .level] : List (Option Kind)).getD kc.toNat none
      (source = none ∨ kind = none ∨ occ = 0 ∨ 4 < occ.toNat ∨
          (∀ (K : Kind) (least most : Int), kind = some K → K.params[par.toNat]? ≠ some (.continuous, least, most)) →
        exec (.ctrlMap f) s = .next (answerCode (some d) .badField u)) ∧
      (∀ (S : MapSource) (K : Kind) (least most : Int), source = some S → kind = some K → 1 ≤ occ.toNat → occ.toNat ≤ 4 →
        K.params[par.toNat]? = some (.continuous, least, most) →
        let given := fun hi lo : Byte => if K = .gate then ((256 * hi.toNat + lo.toNat : Nat) : Int) else (hi ++ lo).toInt
        let kept := fun x : Int => max least (min most x)
        let e : MapEntry := ⟨S, K, occ.toNat, par.toNat, kept (given a₁ a₀), kept (given b₁ b₀)⟩
        exec (.ctrlMap f) s = .next (answer (some d) .ok (if e.min = given a₁ a₀ ∧ e.max = given b₁ b₀ then 0 else 1) .none
          { u with tne := { s.tne with ctrlMap := Mem.set none s.tne.ctrlMap k.toNat (some e) } }))) ∧
    (∀ (k : Byte) (rest : List Byte), MayEdit f.link s → 8 ≤ k.toNat → rest.length = 9 → f.payload = k :: rest →
      exec (.ctrlMap f) s = .next (answerCode (some d) .badField u)) ∧
    (∀ (p hi lo : Byte), f.payload = [p, hi, lo] →
      let x := 256 * hi.toNat + lo.toNat
      let key := if p = 0 then 120 else 121
      let v : State := { u with tne := { s.tne with sources := Mem.set none s.tne.sources key (some (min 1023 x)) } }
      let ok := fun t : State => exec (.pedal f) s = .next (answer (some d) .ok (if 1023 < x then 1 else 0) .none t)
      (1 < p.toNat → exec (.pedal f) s = .next (answerCode (some d) .badField u)) ∧
      (p.toNat ≤ 1 → editBuf s = none → ok v) ∧
      (∀ bid : BufId, p.toNat ≤ 1 → editBuf s = some bid → ∃ after : Nat → List Slot,
        ok (modChain bid (fun c => { c with slots := after 8 }) v) ∧ after 0 = (buf s bid).chain.slots ∧
        ∀ k : Nat, k < 8 →
          ((∀ e : MapEntry, Mem.get none s.tne.ctrlMap k = some e → e.source.key = key → nthOfKind e.kind e.occ 0 (after k) = none) →
            after (k + 1) = after k) ∧
          (∀ (e : MapEntry) (n : Nat) (sl : Slot) (least most : Int), Mem.get none s.tne.ctrlMap k = some e → e.source.key = key →
            nthOfKind e.kind e.occ 0 (after k) = some n → (after k)[n]? = some sl →
            e.kind.params[e.param]? = some (.continuous, least, most) →
            let value := max least (min most (e.min + (e.max - e.min) * (min 1023 x : Nat) / 1023))
            ∃ y : Slot, after (k + 1) = (after k).set n y ∧
              y = { sl with run := sl.run.set e.param value, voice := y.voice, mixStored := y.mixStored } ∧
              Ramped (regionPages s.lma sl.voice.region).length 128 sl y e.param value)))

/-! ## Line memory and tails -/

/-- The line pages stay a partition: every step keeps each of the 256 pages either in the rising free pool or in exactly one region
(R61, R62, R63, R68). -/
def Obligations.StepKeepsLinePages : Prop :=
  ∀ s t : State, PagesOk s.lma → step s = .next t → PagesOk t.lma

/-- TAIL_HOLD_EXPIRY, TAIL_DECAY_END and REMNANT_FREED: a record whose hold is out goes to DECAY with its wet gain falling over 2,048; a
record or a remnant whose fade is over goes, its region leaves the table and its pages return to the free pool. RELEASE_COMPLETION ends a
release of which nothing is left (R73, R75, R76).
MARKED_TAIL_CUT cuts the oldest marked record into the lowest free remnant place: its wet gain falls over 256 unless it is in DECAY with
less to go, its region changes owner and keeps its pages, and the recall is told TAILS_CUT; a silent one is freed at once; with no marked
record or no place nothing changes (R65, R74, R78). That the note of a cut comes with the cut itself and not with the mark is deduced (log 51). -/
def Obligations.TailEventsFreeRecords : Prop :=
  (∀ s : State,
    let returned := fun (id : Nat) (r : Region) (t : State) =>
      (∀ p : Nat, p ∈ t.lma.free ↔ p ∈ s.lma.free ∨ p ∈ r.pages) ∧
      (∀ j : Nat, Mem.get none t.lma.regions j = if j = id then none else Mem.get none s.lma.regions j) ∧
      t.lma.mem = s.lma.mem ∧ t.lma.requests = s.lma.requests ∧ t = { s with tne := t.tne, lma := t.lma }
    (∀ k : Nat, exec (.tailHoldExpiry k) s = .next { s with tne := { s.tne with tails := s.tne.tails.map (fun tl =>
      if tl.index = k ∧ tl.phase = .ringing ∧ tl.expired = true then
        { tl with phase := .decay, expired := false
                  voice := { tl.voice with wet := { v := tl.voice.wet.v, target := 0, count := 2048 } } }
      else tl) } }) ∧
    (∀ (k id : Nat) (tl : Tail) (r : Region), s.tne.tails.find? (fun u => decide (u.index = k)) = some tl → tl.phase = .decay →
      tl.voice.wet.count = 0 → tl.voice.region = some id → Mem.get none s.lma.regions id = some r →
      ∃ t : State, exec (.tailDecayEnd k) s = .next t ∧ returned id r t ∧
        t.tne = { s.tne with tails := s.tne.tails.filter (fun u => decide (u.index ≠ k)) }) ∧
    (∀ (k id : Nat) (g : Remnant) (r : Region), Mem.get none s.tne.remnants k = some g → g.voice.wet.count = 0 →
      g.voice.region = some id → Mem.get none s.lma.regions id = some r →
      ∃ t : State, exec (.remnantFreed k) s = .next t ∧ returned id r t ∧
        t.tne = { s.tne with remnants := t.tne.remnants } ∧
        (∀ j : Nat, Mem.get none t.tne.remnants j = if j = k then none else Mem.get none s.tne.remnants j)) ∧
    (s.tne.release = true → (∀ tl ∈ s.tne.tails, tl.counted = false) → (∀ g ∈ remnantList s.tne, g.counted = false) →
      exec .releaseCompletion s = .next { s with tne := { s.tne with release := false } })) ∧
  ∀ s : State,
    (∀ (before after : List Tail) (tl : Tail) (place : Nat), s.tne.tails = before ++ tl :: after → (∀ u ∈ before, u.marked = false) →
      tl.marked = true → place < 4 → Mem.get none s.tne.remnants place = none →
      (∀ j : Nat, j < place → Mem.get none s.tne.remnants j ≠ none) →
      (∀ u ∈ before ++ after, u.index ≠ tl.index) →
      ∃ t : State, exec .markedTailCut s = .next t ∧ t.tne.tails = before ++ after ∧
        t.rcu = { s.rcu with flight := s.rcu.flight.map (fun r => { r with notes := r.notes ||| 4 }) } ∧
        t = { s with tne := t.tne, lma := t.lma, rcu := t.rcu } ∧
        (tl.voice.wet ≠ ⟨0, tl.voice.wet.target, 0⟩ →
          (∀ j : Nat, Mem.get none t.tne.remnants j = if j = place then
              some { kind := tl.kind, counted := tl.counted, voice := { tl.voice with wet :=
                if tl.phase = .decay ∧ tl.voice.wet.count ≤ 256 then tl.voice.wet
                else { v := tl.voice.wet.v, target := 0, count := 256 } } }
            else Mem.get none s.tne.remnants j) ∧
          t.lma.free = s.lma.free ∧ t.lma.mem = s.lma.mem ∧
          (∀ (id : Nat) (r : Region), tl.voice.region = some id → Mem.get none s.lma.regions id = some r →
            Mem.get none t.lma.regions id = some ⟨.remnant place, r.pages⟩ ∧
            ∀ j : Nat, j ≠ id → Mem.get none t.lma.regions j = Mem.get none s.lma.regions j)) ∧
        (tl.voice.wet = ⟨0, tl.voice.wet.target, 0⟩ →
          t.tne.remnants = s.tne.remnants ∧
          (∀ id : Nat, tl.voice.region = some id → Mem.get none t.lma.regions id = none ∧
            ∀ (r : Region) (p : Nat), Mem.get none s.lma.regions id = some r → (p ∈ t.lma.free ↔ p ∈ s.lma.free ∨ p ∈ r.pages)))) ∧
    ((∀ tl ∈ s.tne.tails, tl.marked = false) → exec .markedTailCut s = .next s) ∧
    ((∀ k : Nat, k < 4 → Mem.get none s.tne.remnants k ≠ none) → exec .markedTailCut s = .next s)

/-- A grant takes the lowest pages of the rising free pool in their order into a new region of the lowest unused id, zeroes their samples and
touches no other region or sample (R63). SHORT_REQUEST_GRANT gives the head request its pages, clears the marks made for it and goes on to the
next: where that is short, tail records are marked, oldest first, until the free pages, the pages of the remnants and those of the marked records
reach what it asks for or none is left unmarked, and are then cut as MARKED_TAIL_CUT cuts one, as far as there are places; the last one granted
completes the build (R64, R65, R74, R138). SHORT_REQUEST_CLAMP gives a DELAY or MOD what is free, a REVERB nothing, and tells the recall
PAGES_CLAMPED (R66). A DELAY whose time does not fit a region that is granted whole is told PAGES_CLAMPED too (R30; by deduction, log 48). That
the clamp is due whatever state the clock monitor is in is the model's choice (log 50). -/
def Obligations.GrantsTakeLowestPages : Prop :=
  (∀ (owner : Owner) (n : Nat) (m : Lma), let g := grantRegion owner n m
    Mem.get none m.regions g.1 = none ∧ (∀ j : Nat, j < g.1 → Mem.get none m.regions j ≠ none) ∧
    (∀ j : Nat, Mem.get none g.2.regions j = if j = g.1 then some ⟨owner, m.free.take n⟩ else Mem.get none m.regions j) ∧
    g.2.free = m.free.drop n ∧ g.2.requests = m.requests ∧
    (∀ a : Nat, Mem.get 0 g.2.mem a = if a / 1024 ∈ m.free.take n then 0 else Mem.get 0 m.mem a)) ∧
  (∀ (s : State) (r : PageReq) (sl : Slot), 0 < r.pages → slotAt s s.rcu.build r.slot = some sl →
    let asked := if sl.run.getD 1 0 = 0 then sl.run.getD 0 0 * 48 else syncLength s.tmp.beat (sl.run.getD 1 0)
    let told := fun (short : Prop) [Decidable short] (u : Rcu) =>
      if short then { u with flight := u.flight.map (fun x => { x with notes := x.notes ||| 8 }) } else u
    let tooLong := sl.kind = .delay ∧ max 1 (1024 * (r.pages : Int) - 1) < asked
    (∀ (q : PageReq) (rest : List PageReq), s.lma.requests = some (r :: q :: rest) → r.pages ≤ s.lma.free.length →
      s.lma.free.length < r.pages + q.pages → s.tne.tails.length ≤ 4 →
      ∃ (v v₁ v₂ v₃ t : State) (y : Slot) (m : Nat), exec .shortRequestGrant s = .next t ∧
        exec .markedTailCut v = .next v₁ ∧ exec .markedTailCut v₁ = .next v₂ ∧ exec .markedTailCut v₂ = .next v₃ ∧
        exec .markedTailCut v₃ = .next t ∧
        v.lma = { (grantRegion (.slot s.rcu.build r.slot) r.pages s.lma).2 with requests := some (q :: rest) } ∧
        slotAt v s.rcu.build r.slot = some y ∧ y.voice.region = some (grantRegion (.slot s.rcu.build r.slot) r.pages s.lma).1 ∧
        y.voice.pos = [] ∧ y.run = sl.run ∧ (∀ j : Nat, j ≠ r.slot → slotAt v s.rcu.build j = slotAt s s.rcu.build j) ∧
        v.tne = { s.tne with bufA := v.tne.bufA, bufB := v.tne.bufB, tails := v.tne.tails } ∧
        v = { s with lma := v.lma, tne := v.tne, rcu := told tooLong s.rcu } ∧
        (let pages := fun x : Voice => (regionPages v.lma x.region).length
         let coming := fun k : Nat => v.lma.free.length + ((remnantList s.tne).map (fun g => pages g.voice)).sum +
           ((s.tne.tails.take k).map (fun tl => pages tl.voice)).sum
         m ≤ s.tne.tails.length ∧ v.tne.tails = s.tne.tails.mapIdx (fun k tl => { tl with marked := decide (k < m) }) ∧
         (∀ k : Nat, k < m → coming k < q.pages) ∧ (m < s.tne.tails.length → q.pages ≤ coming m))) ∧
    (s.lma.requests = some [r] → r.pages ≤ s.lma.free.length → newRelays s = none → quantized s = false →
      ∃ (t : State) (y : Slot), exec .shortRequestGrant s = .next t ∧
        t.lma = { (grantRegion (.slot s.rcu.build r.slot) r.pages s.lma).2 with requests := none } ∧
        slotAt t s.rcu.build r.slot = some y ∧ y.voice.region = some (grantRegion (.slot s.rcu.build r.slot) r.pages s.lma).1 ∧
        (buf t s.rcu.build).state = .ready ∧ t.rcu = { told tooLong s.rcu with fadeDue := true } ∧ t.acd = s.acd) ∧
    (s.lma.requests = some [r] → s.lma.free.length < r.pages → s.tne.tails = [] → s.tne.remnants = [] → newRelays s = none →
      quantized s = false →
      ∃ (t : State) (y : Slot), exec .shortRequestClamp s = .next t ∧ slotAt t s.rcu.build r.slot = some y ∧
        t.lma.requests = none ∧ (buf t s.rcu.build).state = .ready ∧
        t.rcu = { s.rcu with fadeDue := true, flight := s.rcu.flight.map (fun x => { x with notes := x.notes ||| 8 }) } ∧
        (sl.kind = .reverb ∨ s.lma.free = [] → y.voice.region = none ∧ t.lma = { s.lma with requests := none }) ∧
        (sl.kind ≠ .reverb → s.lma.free ≠ [] →
          y.voice.region = some (grantRegion (.slot s.rcu.build r.slot) s.lma.free.length s.lma).1 ∧ t.lma.free = []) ∧
        (sl.kind = .reverb → y.thru = true) ∧ (sl.kind = .delay ∨ sl.kind = .mod → s.lma.free = [] → y.thru = true)))

/-! ## Tuner -/

/-- The note of a span: a span of 4,096 to 204,800 sixteenths gives the nearest note of the table at the reference, the higher of two at equal
distance, and its cents within −50..50; any other span is a miss (R81, R87). The table's spans are those of S_A4, the twelve ratios and the octave
(R86). The lock machine's table; in LOCKED a result that is no HIT, be it a miss or a valid result too far off, counts against the window, whose
oldest entry goes when it is full; with W = 0 the window stays empty, the lock holds, and a HIT alone moves the shown cents (R88, R89, R90). -/
def Obligations.SpansAndLockMachine : Prop :=
  (∀ (ref : Nat) (span : Int), 4096 ≤ span → span ≤ 204800 → ∃ (n : Nat) (c : Int), spanResult ref span = some (n, c) ∧ n < 72 ∧
    (∀ k : Nat, k < 72 → (span - noteSpan ref n).natAbs ≤ (span - noteSpan ref k).natAbs) ∧
    (∀ k : Nat, k < 72 → (span - noteSpan ref k).natAbs = (span - noteSpan ref n).natAbs → k ≤ n) ∧
    c = max (-50) (min 50 ((2 * 1731 * (noteSpan ref n - span) + span) / (2 * span)))) ∧
  (∀ (ref : Nat) (span : Int), (span < 4096 ∨ 204800 < span) → spanResult ref span = none) ∧
  (∀ w : Nat, lockStep w none .search = .search ∧ (∀ (n k : Nat) (p : Int), lockStep w none (.acquire n k p) = .search) ∧
    (∀ (n : Nat) (c : Int), lockStep w (some (n, c)) .search = .acquire n 1 c) ∧
    (∀ (n note k : Nat) (c p : Int), (n ≠ note ∨ 25 < (c - p).natAbs) → lockStep w (some (n, c)) (.acquire note k p) = .acquire n 1 c) ∧
    (∀ (note k : Nat) (c p : Int), (c - p).natAbs ≤ 25 → k ≠ 2 → lockStep w (some (note, c)) (.acquire note k p) = .acquire note (k + 1) c) ∧
    (∀ (note : Nat) (c p : Int), (c - p).natAbs ≤ 25 → lockStep w (some (note, c)) (.acquire note 2 p) = .locked note c []) ∧
    (∀ (note : Nat) (c p : Int) (win : List Bool), 0 < w → (c - p).natAbs ≤ 25 → (win ++ [true]).length ≤ w → win.count false ≤ 1 →
      lockStep w (some (note, c)) (.locked note p win) = .locked note ((3 * p + c + 2) / 4) (win ++ [true])) ∧
    (∀ (note : Nat) (p : Int) (win : List Bool), 0 < w → (win ++ [false]).length ≤ w →
      (win.count false = 0 → lockStep w none (.locked note p win) = .locked note p (win ++ [false])) ∧
      (win.count false = 1 → lockStep w none (.locked note p win) = .search)) ∧
    (∀ (note : Nat) (c p : Int) (win : List Bool), 0 < w → (c - p).natAbs ≤ 25 →
      let kept := (win ++ [true]).drop ((win ++ [true]).length - w)
      lockStep w (some (note, c)) (.locked note p win) =
        if 2 ≤ kept.count false then .search else .locked note ((3 * p + c + 2) / 4) kept) ∧
    (∀ (r : Option (Nat × Int)) (note : Nat) (p : Int) (win : List Bool), 0 < w → (∀ c : Int, r = some (note, c) → 25 < (c - p).natAbs) →
      let kept := (win ++ [false]).drop ((win ++ [false]).length - w)
      lockStep w r (.locked note p win) = if 2 ≤ kept.count false then .search else .locked note p kept) ∧
    (∀ (note : Nat) (c p : Int) (win : List Bool), (c - p).natAbs ≤ 25 →
      lockStep 0 (some (note, c)) (.locked note p win) = .locked note ((3 * p + c + 2) / 4) []) ∧
    (∀ (r : Option (Nat × Int)) (note : Nat) (p : Int) (win : List Bool), (∀ c : Int, r = some (note, c) → 25 < (c - p).natAbs) →
      lockStep 0 r (.locked note p win) = .locked note p [])) ∧
  ∀ (ref octave n ratio : Nat), 1 ≤ octave → octave ≤ 6 →
    [110218, 104032, 98194, 92682, 87480, 82570, 77935, 73562, 69433, 65536, 61858, 58386][n]? = some ratio →
    let s4 := 61440000 / ref * ratio / 65536
    noteSpan ref (12 * (octave - 1) + n) = if octave ≤ 4 then s4 * 2 ^ (4 - octave) else s4 / 2 ^ (octave - 4)

/-- MEASUREMENT_COMPLETE gives the channel's span to its lock machine and restarts its timer; MEASUREMENT_TIMER_EXPIRY is a miss;
DISPLAY_EXPIRY ends a HELD record. The display record is LIVE in LOCKED and HELD after it. A channel that enters or leaves LOCKED posts TUNER_LOCK
with its new state and display record, and a complete measurement of the selected channel, with the mode ON, then posts TUNER_READING with the span,
its result, and the lock state and display record after it; nothing outside the channel and the reports changes (R81, R82, R92, R95, R98, R99). -/
def Obligations.TunerEventsMoveChannel : Prop :=
  ∀ (ch : ChanId) (s : State),
    let w := s.tun.window
    let old := chan s ch
    let shown := fun new : LockState => (match new, old.lock with
      | .locked n c _, _ => Display.live n c
      | _, .locked n c _ => .held n c
      | _, _ => old.display)
    let lockTold := fun new : LockState =>
      if decide (old.lock.tag = .locked) = decide (new.tag = .locked) then s else post (.tunerLock ch new.tag (shown new)) s
    let chosen := match s.tun.mode.channel with
      | .t1 => ChanId.t1
      | .t2 => .t2
      | .follow => match activeBuf s with
        | some bid => if (buf s bid).chain.input = .lane2 then .t2 else .t1
        | none => .t1
    let only := fun (t : State) => (∀ c : ChanId, c ≠ ch → chan t c = chan s c) ∧ t.tun.mode = s.tun.mode ∧ t.tun.ref = s.tun.ref ∧
      t = { s with tun := t.tun, lkc := t.lkc } ∧ t.lkc.counters = s.lkc.counters
    (∀ span : Int, old.span = some span →
      let result := spanResult s.tun.ref span
      let new := lockStep w result old.lock
      ∃ t : State, exec (.measurementComplete ch) s = .next t ∧ only t ∧
        chan t ch = { old with lock := new, span := none, timer := true, display := shown new } ∧
        (s.tun.mode.on = true → chosen = ch →
          t.lkc = (post (.tunerReading ch span result new.tag (shown new)) (lockTold new)).lkc) ∧
        (s.tun.mode.on = false ∨ chosen ≠ ch → t.lkc = (lockTold new).lkc)) ∧
    (old.span = none → exec (.measurementComplete ch) s = .next s) ∧
    (old.timer = true →
      let new := lockStep w none old.lock
      ∃ t : State, exec (.measurementTimerExpiry ch) s = .next t ∧ only t ∧
        chan t ch = { old with lock := new, display := shown new } ∧ t.lkc = (lockTold new).lkc) ∧
    (old.timer = false → exec (.measurementTimerExpiry ch) s = .next s) ∧
    (∀ (n : Nat) (c : Int), old.display = .held n c → ∃ t : State, exec (.displayExpiry ch) s = .next t ∧ only t ∧ t.lkc = s.lkc ∧
      chan t ch = { old with display := .absent })

/-- TUNE sets, clears or toggles the mode and writes the fields it carries; TUNE is in the mute set while the mode is on under MUTE or DRY,
the tune override is on under DRY, and F6 mirrors the mode. TUNER_REF writes the reference, clamped to 4000..4800, and the window: a changed
reference recomputes the tone increment and sends both lock machines to SEARCH, and a channel that was LOCKED holds its note and cents on its display
and reports them in TUNER_LOCK (R8, R16, R85, R91 to R94, R96, R99). An operation or a field with a code past its values is BAD_FIELD, and so is a
TUNER_REF that carries nothing. A presence byte with bits that name no field is BAD_FIELD by deduction (R202, log 35); that T1's TUNER_LOCK is posted
before T2's, and that the request is answered after them, is the model's choice (logs 52, 61). -/
def Obligations.TunerRequestsWriteMode : Prop :=
  ∀ (f : Frame) (s : State), Room f.link s →
    let d := destOf f s
    let u := arrived f s
    let searching := fun c : Channel => match c.lock with
      | .locked note cents _ => { c with lock := .search, display := .held note cents }
      | _ => { c with lock := .search }
    let told := fun (ch : ChanId) (v : State) => match (chan s ch).lock with
      | .locked note cents _ => post (.tunerLock ch .search (.held note cents)) v
      | _ => v
    let changed := fun (ref window : Nat) (t : State) =>
      t.tun = { s.tun with ref := ref, window := window, t1 := searching s.tun.t1, t2 := searching s.tun.t2 } ∧
      t.lkc = (told .t2 (told .t1 u)).lkc
    (∀ op mask c p e : Byte, op.toNat ≤ 2 → mask.toNat < 8 → c.toNat ≤ 2 → p.toNat ≤ 2 → e.toNat ≤ 1 →
      let bit := fun k : Nat => mask.getLsbD k
      f.payload = [op, mask] ++ (if bit 0 then [c] else []) ++ (if bit 1 then [p] else []) ++ (if bit 2 then [e] else []) →
      let on := if op = 0 then true else if op = 1 then false else !s.tun.mode.on
      let m : TuneMode := {
        on := on
        channel := if bit 0 then (if c = 0 then .t1 else if c = 1 then .t2 else .follow) else s.tun.mode.channel
        policy := if bit 1 then (if p = 0 then .mute else if p = 1 then .dry else .live) else s.tun.mode.policy
        exitOnRecall := if bit 2 then decide (e = 1) else s.tun.mode.exitOnRecall }
      ∃ t : State, exec (.tune f) s = .next (answer (some d) .ok 0 (.tune m) t) ∧
        t.tun = { s.tun with mode := m } ∧ t.tne = { s.tne with mute := t.tne.mute, muteRamp := t.tne.muteRamp, busNotice := t.tne.busNotice } ∧
        t.tne.mute = { s.tne.mute with tune := on && decide (m.policy ≠ .live) } ∧
        t.aup.override = (on && decide (m.policy = .dry)) ∧ t.aup.inLanes = s.aup.inLanes ∧ t.aup.clock = s.aup.clock ∧
        t.swc = { s.swc with flags := if on then s.swc.flags ||| 0x40 else s.swc.flags &&& 0xBF } ∧
        t.lma = s.lma ∧ t.tmp = s.tmp ∧ t.rcu = s.rcu ∧ t.pst = s.pst ∧ t.acd = s.acd ∧ t.lkc = u.lkc) ∧
    (∀ op mask c p e : Byte,
      f.payload = [op, mask] ++ (if mask.getLsbD 0 then [c] else []) ++ (if mask.getLsbD 1 then [p] else []) ++ (if mask.getLsbD 2 then [e] else []) →
      (8 ≤ mask.toNat ∨ 2 < op.toNat ∨ mask.getLsbD 0 = true ∧ 2 < c.toNat ∨ mask.getLsbD 1 = true ∧ 2 < p.toNat ∨
        mask.getLsbD 2 = true ∧ 1 < e.toNat) →
      exec (.tune f) s = .next (answerCode (some d) .badField u)) ∧
    (∀ mask hi lo n : Byte, MayEdit f.link s → mask = 0 ∨ 3 < mask.toNat →
      f.payload = [mask] ++ (if mask.getLsbD 0 then [hi, lo] else []) ++ (if mask.getLsbD 1 then [n] else []) →
      exec (.tunerRef f) s = .next (answerCode (some d) .badField u)) ∧
    (∀ hi lo : Byte, MayEdit f.link s → f.payload = [1, hi, lo] →
      let x := 256 * hi.toNat + lo.toNat
      let ref := max 4000 (min 4800 x)
      let note : Byte := if ref = x then 0 else 1
      (ref = s.tun.ref → exec (.tunerRef f) s = .next (answer (some d) .ok note .none u)) ∧
      (ref ≠ s.tun.ref → ∃ t : State, exec (.tunerRef f) s = .next (answer (some d) .ok note .none t) ∧
        t.tun.ref = ref ∧ t.tun.window = s.tun.window ∧ t.tun.mode = s.tun.mode ∧ changed ref s.tun.window t ∧
        (chan t .t1).lock = .search ∧ (chan t .t2).lock = .search ∧
        t.aup = { s.aup with toneInc := BitVec.ofNat 32 (ref * 4294967296 / 480000) } ∧
        t.tne = s.tne ∧ t.lma = s.lma ∧ t.tmp = s.tmp ∧ t.swc = s.swc ∧ t.rcu = s.rcu ∧ t.pst = s.pst ∧ t.acd = s.acd)) ∧
    (∀ n : Byte, MayEdit f.link s → f.payload = [2, n] →
      (n = 0 ∨ n = 4 ∨ n = 5 ∨ n = 6 → ∃ t : State, exec (.tunerRef f) s = .next (answer (some d) .ok 0 .none t) ∧
        t = { u with tun := t.tun } ∧ t.tun.window = n.toNat ∧ t.tun.ref = s.tun.ref ∧ t.tun.mode = s.tun.mode ∧
        (∀ (c : ChanId) (k : Nat) (p : Int) (win : List Bool), (chan s c).lock = .locked k p win →
          chan t c = { chan s c with lock := .locked k p (win.drop (win.length - n.toNat)) })) ∧
      (n ≠ 0 → n ≠ 4 → n ≠ 5 → n ≠ 6 → exec (.tunerRef f) s = .next (answerCode (some d) .badField u))) ∧
    (∀ hi lo n : Byte, MayEdit f.link s → f.payload = [3, hi, lo, n] →
      let x := 256 * hi.toNat + lo.toNat
      let ref := max 4000 (min 4800 x)
      (n ≠ 0 → n ≠ 4 → n ≠ 5 → n ≠ 6 → exec (.tunerRef f) s = .next (answerCode (some d) .badField u)) ∧
      (n = 0 ∨ n = 4 ∨ n = 5 ∨ n = 6 → ∃ t : State, exec (.tunerRef f) s = .next (answer (some d) .ok (if ref = x then 0 else 1) .none t) ∧
        t.tun.ref = ref ∧ t.tun.window = n.toNat ∧ t.tun.mode = s.tun.mode ∧
        (ref ≠ s.tun.ref → (chan t .t1).lock = .search ∧ (chan t .t2).lock = .search ∧ changed ref n.toNat t ∧
          t.aup = { s.aup with toneInc := BitVec.ofNat 32 (ref * 4294967296 / 480000) }) ∧
        (ref = s.tun.ref → t.aup = s.aup ∧ t.lkc = u.lkc ∧
          ∀ (c : ChanId) (k : Nat) (p : Int) (win : List Bool), (chan s c).lock = .locked k p win →
            chan t c = { chan s c with lock := .locked k p (win.drop (win.length - n.toNat)) }) ∧
        t.tne = s.tne ∧ t.lma = s.lma ∧ t.tmp = s.tmp ∧ t.swc = s.swc ∧ t.rcu = s.rcu ∧ t.pst = s.pst ∧ t.acd = s.acd))

/-! ## Tempo -/

/-- TEMPO sets the internal tempo, clamped to 400..3000, and ends the tap series; with the internal source it is the tempo in use, with its beat
length. TAP by the rows of R103's table (R100 to R104). The request and a tap that joins the list bring the tempo and beat length in use into line
with the source and the follower; a changed beat length gives the beat-length notice to the synced DELAY slots, and a changed tempo posts TEMPO_VALUE
(R101, R110, R112). That a report of the request is posted before its reply, and the target 1 of a synced DELAY slot without a region, are the
model's choice (logs 61 and 85). -/
def Obligations.TempoRequestsSetTempo : Prop :=
  ∀ (f : Frame) (s : State), Room f.link s →
    let d := destOf f s
    let u := arrived f s
    let now := s.tmp.sampleNo
    let held := fun (tempo : Nat) (t : State) =>
      if s.tmp.midiSource = true ∧ s.tmp.follower.state ≠ .locked then
        t.tmp.heldTempo = tempo ∧ t.tmp.heldBeat = (28800000 + tempo / 2) / tempo
      else t.tmp.heldTempo = s.tmp.heldTempo ∧ t.tmp.heldBeat = s.tmp.heldBeat
    (∀ hi lo : Byte, f.payload = [hi, lo] →
      let x := 256 * hi.toNat + lo.toNat
      let tempo := max 400 (min 3000 x)
      ∃ t : State, exec (.tempo f) s = .next (answer (some d) .ok (if tempo = x then 0 else 1)
          (.tempo tempo s.tmp.midiSource s.tmp.follower.state t.tmp.tempo) t) ∧
        t.tmp.internal = tempo ∧ t.tmp.lastTap = none ∧ t.tmp.intervals = [] ∧ t.tmp.follower = s.tmp.follower ∧
        t.tmp.midiSource = s.tmp.midiSource ∧ t.tmp.beatCount = s.tmp.beatCount ∧ t.tmp.sampleNo = now ∧
        (s.tmp.midiSource = false → t.tmp.tempo = tempo ∧ t.tmp.beat = (28800000 + tempo / 2) / tempo) ∧
        (s.tmp.midiSource = true → s.tmp.follower.state = .locked → t.tmp.beat = max 9600 (min 72000 s.tmp.follower.b)) ∧
        (s.tmp.midiSource = true → s.tmp.follower.state = .locked →
          t.tmp.tempo = max 400 (min 3000 ((28800000 + s.tmp.follower.b / 2) / s.tmp.follower.b))) ∧
        (s.tmp.midiSource = true → s.tmp.follower.state ≠ .locked → t.tmp.tempo = tempo ∧ t.tmp.heldTempo = tempo) ∧
        held tempo t ∧ Paced none u t ∧
        t.aup = s.aup ∧ t.lma = s.lma ∧ t.tun = s.tun ∧ t.swc = s.swc ∧ t.rcu = s.rcu ∧ t.pst = s.pst ∧ t.acd = s.acd) ∧
    (f.payload = [] →
      let free := s.tmp.midiSource = false ∨ s.tmp.follower.state ≠ .locked
      let tapped := fun (o : TapOutcome) (t : State) =>
        exec (.tap f) s = .next (answer (some d) .ok 0 (.tap o t.tmp.intervals.length t.tmp.tempo) t)
      let series := fun (last : Option Nat) (l : List Nat) =>
        ({ u with tmp := { s.tmp with lastTap := last, intervals := l } } : State)
      (s.tmp.midiSource = true → s.tmp.follower.state = .locked → tapped .ignored (post .tapIgnored u)) ∧
      (free → s.aup.clock ≠ .running → tapped .cleared (series none [])) ∧
      (free → s.aup.clock = .running → s.tmp.lastTap = none → tapped .first (series (some now) [])) ∧
      (∀ last : Nat, free → s.aup.clock = .running → s.tmp.lastTap = some last →
        (96000 < now - last → tapped .newSeries (series (some now) [])) ∧
        (72000 < now - last → now - last ≤ 96000 → tapped .invalid (series (some now) s.tmp.intervals)) ∧
        (now - last < 9600 → tapped .dropped u) ∧
        (9600 ≤ now - last → now - last ≤ 72000 →
          let l := (s.tmp.intervals ++ [now - last]).drop ((s.tmp.intervals ++ [now - last]).length - 4)
          let mean := (l.sum + l.length / 2) / l.length
          ∃ t : State, tapped .added t ∧ t.tmp.lastTap = some now ∧ t.tmp.intervals = l ∧
            t.tmp.internal = max 400 (min 3000 ((28800000 + mean / 2) / mean)) ∧
            t.tmp.midiSource = s.tmp.midiSource ∧ t.tmp.follower = s.tmp.follower ∧ t.tmp.beatCount = s.tmp.beatCount ∧
            held t.tmp.internal t ∧ Paced none u t ∧
            t.aup = s.aup ∧ t.lma = s.lma ∧ t.tun = s.tun ∧ t.swc = s.swc ∧ t.rcu = s.rcu ∧ t.pst = s.pst ∧ t.acd = s.acd)))

/-- MIDI_CLOCK, FOLLOWER_MEASUREMENT and NO_CLOCK_TIMER_EXPIRY move the follower by R105 and R106; F7 is set on entering LOCKED and cleared on
leaving it. A clock byte with no start begins a measurement while the clock monitor is RUNNING and none otherwise (R105, R107). A measurement in
LOCKED is judged against b, moves b unless it is a deviant, and joins the history, whose oldest entry leaves when it would hold five; two deviants
end the lock (R106). With source MIDI a measurement in LOCKED gives a beat and moves the tempo and beat length in use, and leaving LOCKED holds
the values in use (R101, R109); TEMPO_LOCK is posted on entering and leaving LOCKED, before the TEMPO_VALUE of a change (by deduction, log 31),
and a changed beat length gives the beat-length notice (R106, R110, R112; a DELAY slot without a region, log 85). BEAT_EVENT starts the count
again, and an ARMED recall fades at the next block boundary; while the clock monitor is not RUNNING, or while the MIDI clock gives the beats, no
beat is given by count (R108, R109, R140). That the 24th byte leaves the measurement due for a row of its own (log 2), and that the locking byte
starts the beat count again only with source MIDI (log 33), and that a completed measurement not taken before the no-clock timer expires is
dropped (log 62), is the model's choice, and that a beat by count not given before the clock was lost is not given later is deduced (log 47). -/
def Obligations.FollowerAndBeatEvents : Prop :=
  ∀ s : State,
    let fol := s.tmp.follower
    let now := s.tmp.sampleNo
    let moved := fun (x : Follower) => ({ s with tmp := { s.tmp with follower := x } } : State)
    (fol.state = .noClock → fol.start = none → exec .midiClock s = .next (moved
      (if s.aup.clock = .running then { fol with state := .search, timer := true, start := some now, count := 0 }
       else { fol with state := .search, timer := true }))) ∧
    (fol.state ≠ .noClock → fol.start = none → exec .midiClock s = .next (moved
      (if s.aup.clock = .running then { fol with timer := true, start := some now, count := 0 } else { fol with timer := true }))) ∧
    (∀ k : Nat, fol.state ≠ .noClock → fol.start = some k → fol.count < 24 →
      exec .midiClock s = .next (moved { fol with timer := true, count := fol.count + 1 })) ∧
    (∀ k : Nat, fol.state = .search → fol.start = some k → fol.count = 24 →
      let m := now - k
      (fol.m1 = none → exec .followerMeasurement s = .next (moved { fol with start := some now, count := 0, m1 := some m })) ∧
      (∀ p : Nat, fol.m1 = some p → p < ((m : Int) - p).natAbs * 50 →
        exec .followerMeasurement s = .next (moved { fol with start := some now, count := 0, m1 := some m })) ∧
      (∀ p : Nat, fol.m1 = some p → ((m : Int) - p).natAbs * 50 ≤ p → ∃ t : State, exec .followerMeasurement s = .next t ∧
        t.tmp.follower = { fol with start := some now, count := 0, state := .locked, b := m, history := [], m1 := none } ∧
        t.swc = { s.swc with flags := s.swc.flags ||| 0x80 } ∧
        t.tmp.beatCount = (if s.tmp.midiSource then 0 else s.tmp.beatCount) ∧ t.tmp.internal = s.tmp.internal ∧
        t.tmp.midiSource = s.tmp.midiSource ∧ t.tmp.heldTempo = s.tmp.heldTempo ∧ t.tmp.heldBeat = s.tmp.heldBeat ∧
        Paced (some (.tempoLock .locked none m t.tmp.tempo)) s t ∧
        t.aup = s.aup ∧ t.lma = s.lma ∧ t.tun = s.tun ∧ t.rcu = s.rcu ∧ t.pst = s.pst ∧ t.acd = s.acd)) ∧
    (∀ k : Nat, fol.state = .locked → fol.start = some k → fol.count = 24 →
      let m := now - k
      let deviant := decide (fol.b < ((m : Int) - fol.b).natAbs * 25)
      let b := if deviant then fol.b else (3 * fol.b + m + 2) / 4
      let kept := (fol.history ++ [deviant]).drop ((fol.history ++ [deviant]).length - 4)
      ∃ t : State, exec .followerMeasurement s = .next t ∧
        (kept.count true < 2 →
          t.tmp.follower = { fol with start := some now, count := 0, b := b, history := kept } ∧ t.swc = s.swc ∧
          t.tmp.heldTempo = s.tmp.heldTempo ∧ t.tmp.heldBeat = s.tmp.heldBeat ∧ Paced none s t) ∧
        (2 ≤ kept.count true →
          t.tmp.follower = { fol with start := some now, count := 0, state := .search, b := b, m1 := some m, history := [] } ∧
          t.swc = { s.swc with flags := s.swc.flags &&& 0x7F } ∧
          t.tmp.heldTempo = (if s.tmp.midiSource then s.tmp.tempo else s.tmp.heldTempo) ∧
          t.tmp.heldBeat = (if s.tmp.midiSource then s.tmp.beat else s.tmp.heldBeat) ∧
          Paced (some (.tempoLock .search (some .deviant) b t.tmp.tempo)) s t) ∧
        t.tmp.midiSource = s.tmp.midiSource ∧ t.tmp.internal = s.tmp.internal ∧ t.tmp.sampleNo = now ∧
        t.tmp.beatCount = (if s.tmp.midiSource then 0 else s.tmp.beatCount) ∧
        t.rcu = (if s.tmp.midiSource then { s.rcu with fadeDue := s.rcu.fadeDue || decide (s.rcu.state = .armed) } else s.rcu) ∧
        t.aup = s.aup ∧ t.lma = s.lma ∧ t.tun = s.tun ∧ t.pst = s.pst ∧ t.acd = s.acd) ∧
    (fol.timer = true → fol.state = .locked → s.tmp.midiSource = true → ∃ t : State, exec .noClockTimerExpiry s = .next t ∧
      t.tmp.follower = { fol with state := .noClock, start := none, count := 0, m1 := none, history := [], timer := false } ∧
      t.tmp.heldTempo = s.tmp.tempo ∧ t.tmp.heldBeat = s.tmp.beat ∧ t.tmp.tempo = s.tmp.tempo ∧ t.tmp.beat = s.tmp.beat ∧
      t.swc = { s.swc with flags := s.swc.flags &&& 0x7F } ∧ t.rcu = s.rcu ∧
      Paced (some (.tempoLock .noClock (some .noClock) fol.b t.tmp.tempo)) s t) ∧
    (fol.timer = true → fol.state = .search → exec .noClockTimerExpiry s = .next (moved
      { fol with state := .noClock, start := none, count := 0, m1 := none, history := [], timer := false })) ∧
    (fol.timer = true → fol.state = .locked → s.tmp.midiSource = false → ∃ t : State, exec .noClockTimerExpiry s = .next t ∧
      t.tmp.follower = { fol with state := .noClock, start := none, count := 0, m1 := none, history := [], timer := false } ∧
      t.swc = { s.swc with flags := s.swc.flags &&& 0x7F } ∧ t.rcu = s.rcu ∧
      Paced (some (.tempoLock .noClock (some .noClock) fol.b t.tmp.tempo)) s t) ∧
    (s.tmp.beatDue = true → s.aup.clock = .running → (s.tmp.midiSource = false ∨ fol.state ≠ .locked) → exec .beatEvent s = .next { s with
      tmp := { s.tmp with beatCount := 0, beatDue := false }
      rcu := { s.rcu with fadeDue := s.rcu.fadeDue || decide (s.rcu.state = .armed) } }) ∧
    ((s.tmp.beatDue = false ∨ s.aup.clock ≠ .running ∨ s.tmp.midiSource = true ∧ fol.state = .locked) → exec .beatEvent s = .next s)

/-! ## Switches, MIDI and bindings -/

/-- A press of an UP switch that its link may send makes it DOWN with the time of the press and fires the record that names it with PRESS (stated
for none, one FLAG record and one MOMENTARY record, which pushes the identity and counts on the switch), or, with a HOLD record, starts its hold
timer and fires nothing; the timer's expiry fires the HOLD record (none, or one BANK record). A release makes the switch UP: with the timer still
running it fires the PRESS record put off first, then the RELEASE record, and then pops the return stack once for each count of the switch. An
edge that finds the switch so already is ignored with a link event error; another link's switch is BAD_FIELD (R113 to R117, R129, R130). The
synthetic releases of the foot link go through the foot switches that are DOWN in ascending number: each fires its RELEASE record and pops, and a
PRESS put off is dropped (R118). That the entry of an UP switch has no press time (log 55), that the origin of a popped recall is the switch
number (log 63), and that COUNTER_OVERFLOW of an ignored edge comes before its reply (log 61), is the model's choice; that a pop that fails posts
no BINDING_FAILED is deduced (log 28). -/
def Obligations.SwitchEdgesFire : Prop :=
  (∀ (f : Frame) (s : State) (k edge : Byte), Room f.link s → f.payload = [k, edge] →
    let d := destOf f s
    let u := arrived f s
    let mine := (f.link = .foot ∧ k.toNat < 16) ∨ (f.link = .main ∧ 16 ≤ k.toNat ∧ k.toNat < 24)
    let lone := fun (g : Gesture) (a : Action) (i : Nat) => i < 64 ∧ namesSwitch k.toNat g (bindingAt s i).trigger = true ∧
      (bindingAt s i).cond = none ∧ (bindingAt s i).action = a ∧ (bindingAt s i).report = false ∧
      ∀ j : Nat, j < 64 → j ≠ i → namesSwitch k.toNat g (bindingAt s j).trigger = false
    let quiet := fun (g : Gesture) => ∀ i : Nat, i < 64 → namesSwitch k.toNat g (bindingAt s i).trigger = false
    let taken := fun (down : Bool) => answer (some d) .ok 0 (.switch true down) u
    let standing := fun (e : SwitchEntry) (t : State) =>
      ({ t with swc := { t.swc with switches := Mem.set {} t.swc.switches k.toNat e } } : State)
    (¬mine → exec (.switchPress f) s = .next (answerCode (some d) .badField u)) ∧
    (mine → 1 < edge.toNat → exec (.switchPress f) s = .next (answerCode (some d) .badField u)) ∧
    (mine → edge = 0 → (switchAt s k.toNat).down = true → exec (.switchPress f) s =
      .next (answer (some d) .ok 0 (.switch false true) (countEvent 20 u))) ∧
    (mine → edge = 1 → (switchAt s k.toNat).down = false → exec (.switchRelease f) s =
      .next (answer (some d) .ok 0 (.switch false false) (countEvent 20 u))) ∧
    (mine → edge = 0 → (switchAt s k.toNat).down = false → ¬quiet .hold → exec (.switchPress f) s =
      .next (standing ⟨true, some (s.timebase / 1000), true, .running, 0⟩ (taken true))) ∧
    (mine → edge = 0 → (switchAt s k.toNat).down = false → quiet .hold →
      let pressed := standing ⟨true, some (s.timebase / 1000), false, .idle, 0⟩ (taken true)
      (quiet .press → exec (.switchPress f) s = .next pressed) ∧
      (∀ (i : Nat) (op : FlagOp) (mask : Byte), lone .press (.flag op mask) i →
        exec (.switchPress f) s =
          .next { pressed with swc := { pressed.swc with flags := op.apply mask s.swc.flags } }) ∧
      (∀ i p sc : Nat, lone .press (.momentary p sc) i →
        (4 ≤ s.swc.stack.length → exec (.switchPress f) s = .next (post (.stackFull i) pressed)) ∧
        (s.swc.stack.length < 4 → s.pst.scanning = true → exec (.switchPress f) s =
          .next (post (.recallFailed (some p) sc .notReady (.momentary i)) (post (.bindingFailed i (.code .notReady))
            (let v := standing ⟨true, some (s.timebase / 1000), false, .idle, 1⟩ (taken true)
             { v with swc := { v.swc with stack := (s.rcu.ident.preset, s.rcu.ident.scene) :: s.swc.stack } })))))) ∧
    (mine → edge = 1 → (switchAt s k.toNat).down = true →
      let up := { taken false with swc := { s.swc with switches := Mem.drop s.swc.switches k.toNat } }
      let flagged := fun (x : Byte) => exec (.switchRelease f) s = .next { up with swc := { up.swc with flags := x } }
      let short := (switchAt s k.toNat).timer = .running
      let pops := (switchAt s k.toNat).momentary
      (pops = 0 → (¬short ∨ quiet .press) → quiet .release → exec (.switchRelease f) s = .next up) ∧
      (∀ (i : Nat) (op : FlagOp) (mask : Byte), pops = 0 → short → lone .press (.flag op mask) i →
        (quiet .release → flagged (op.apply mask s.swc.flags)) ∧
        (∀ (j : Nat) (op' : FlagOp) (mask' : Byte), lone .release (.flag op' mask') j →
          flagged (op'.apply mask' (op.apply mask s.swc.flags)))) ∧
      (∀ (i : Nat) (op : FlagOp) (mask : Byte), pops = 0 → (¬short ∨ quiet .press) → lone .release (.flag op mask) i →
        flagged (op.apply mask s.swc.flags)) ∧
      (¬short → quiet .release → s.swc.stack = [] →
        exec (.switchRelease f) s = .next (Nat.repeat (post (.stackEmpty (.switch k.toNat))) pops up)) ∧
      (∀ (p sc : Nat) (rest : List (Option Nat × Nat)), pops = 1 → ¬short → quiet .release → s.swc.stack = (some p, sc) :: rest →
        let popped := { up with swc := { up.swc with stack := rest } }
        (s.pst.scanning = true → exec (.switchRelease f) s =
          .next (post (.recallFailed (some p) sc .notReady (.ret (.switch k.toNat))) popped)) ∧
        (∀ e : DirEntry, s.pst.scanning = false → entry s.pst p = some e → s.rcu.state = .idle →
          (∀ bid : BufId, activeBuf s = some bid → (buf s bid).chain.preset ≠ p ∨ (buf s bid).chain.edited = true) →
          s.pst.op = none → s.pst.reads = [] → exec (.switchRelease f) s = .next { popped with
            rcu := { s.rcu with flight := some { preset := p, scene := sc, origin := .ret (.switch k.toNat) }, state := .fetching
                                readNo := s.rcu.readNo + 1, fadeDue := false, swapped := false, dip := false, joinedDue := false }
            pst := { s.pst with op := some (.read (.recall (s.rcu.readNo + 1)) e) } }))) ∧
    (k.toNat < 24 → (switchAt s k.toNat).down = true → (switchAt s k.toNat).timer = .running →
      let held := standing { switchAt s k.toNat with timer := .expired } s
      (quiet .hold → exec (.holdTimerExpiry k.toNat) s = .next held) ∧
      (∀ (i : Nat) (op : BankOp), lone .hold (.bank op) i →
        exec (.holdTimerExpiry k.toNat) s = .next { held with swc := { held.swc with bank := op.apply s.swc.bank } })) ∧
    ((switchAt s k.toNat).timer ≠ .running → exec (.holdTimerExpiry k.toNat) s = .next s)) ∧
  ∀ v : State,
    let isDown := fun (k : Nat) => k < 16 ∧ (switchAt v k).down = true
    let silent := fun (k : Nat) => ∀ i : Nat, i < 64 → namesSwitch k .release (bindingAt v i).trigger = false
    let one := fun (k : Nat) (op : FlagOp) (mask : Byte) (i : Nat) => i < 64 ∧ namesSwitch k .release (bindingAt v i).trigger = true ∧
      (bindingAt v i).cond = none ∧ (bindingAt v i).action = .flag op mask ∧ (bindingAt v i).report = false ∧
      ∀ j : Nat, j < 64 → j ≠ i → namesSwitch k .release (bindingAt v j).trigger = false
    let t := syntheticReleases v
    ((∀ k : Nat, isDown k → silent k ∧ (switchAt v k).momentary = 0) →
      t = { v with swc := { v.swc with switches := t.swc.switches } } ∧
      ∀ k : Nat, (isDown k → switchAt t k = {}) ∧ (¬isDown k → switchAt t k = switchAt v k)) ∧
    (∀ (k i : Nat) (op : FlagOp) (mask : Byte), isDown k → (∀ j : Nat, isDown j → j = k) → (switchAt v k).momentary = 0 →
      one k op mask i →
      t = { v with swc := { v.swc with switches := Mem.drop v.swc.switches k, flags := op.apply mask v.swc.flags } }) ∧
    (∀ (k i k' i' : Nat) (op op' : FlagOp) (mask mask' : Byte), k < k' → isDown k → isDown k' → (∀ j : Nat, isDown j → j = k ∨ j = k') →
      (switchAt v k).momentary = 0 → (switchAt v k').momentary = 0 → one k op mask i → one k' op' mask' i' →
      t = { v with swc := { v.swc with
        switches := Mem.drop (Mem.drop v.swc.switches k) k', flags := op'.apply mask' (op.apply mask v.swc.flags) } }) ∧
    (∀ (k p sc : Nat) (rest : List (Option Nat × Nat)), isDown k → (∀ j : Nat, isDown j → j = k) → (switchAt v k).momentary = 1 → silent k →
      let up := fun (l : List (Option Nat × Nat)) =>
        ({ v with swc := { v.swc with switches := Mem.drop v.swc.switches k, stack := l } } : State)
      (v.swc.stack = [] → t = post (.stackEmpty (.switch k)) (up [])) ∧
      (v.swc.stack = (some p, sc) :: rest → v.pst.scanning = true →
        t = post (.recallFailed (some p) sc .notReady (.ret (.switch k))) (up rest)))

/-- The MIDI line: a control change on a received channel gives its source value v × 1023 / 127 and its previous value, and fires a record whose
threshold it crosses upward; a program change fires its record, or with none and the direct map on recalls its preset of the selected bank (which
fails while the store is SCANNING or where the preset is absent), or does nothing; status bytes set and clear the running status, and a data byte
completes a message under it; a missing stop bit clears the data gathered and counts (R120, R121, R122, R188). That a whole-message row leaves
its status as the running status, and that data bytes arrive as MIDI_STATUS_BYTE, is deduced (log 42). -/
def Obligations.MidiLineMessages : Prop :=
  ∀ s : State,
    let line := fun (w : Swc) (status : Option Byte) (discard : Bool) => { w with running := status, gathered := [], discard := discard }
    (∀ ch c v : Nat, 1 ≤ ch → ch ≤ 16 →
      let heard : State := { s with swc := line s.swc (some (BitVec.ofNat 8 (175 + ch))) false }
      (s.swc.channel ≠ none → s.swc.channel ≠ some ch → exec (.controlChange ch c v) s = .next heard) ∧
      (119 < c → exec (.controlChange ch c v) s = .next heard) ∧
      ((s.swc.channel = none ∨ s.swc.channel = some ch) → c < 120 →
        (∀ i : Nat, i < 64 → ∀ th : Nat, (bindingAt s i).trigger ≠ .midiCc c th) →
        (∀ k e, k < 8 → Mem.get none s.tne.ctrlMap k = some e → e.source.key ≠ c) →
        exec (.controlChange ch c v) s = .next { heard with
          swc := { heard.swc with
            ccPrev := Mem.set 0 s.swc.ccPrev c v, bankSelect := if c = 0 ∧ v ≤ 1 then v else s.swc.bankSelect }
          tne := { s.tne with sources := Mem.set none s.tne.sources c (some (v * 1023 / 127)) } })) ∧
    (∀ ch n : Nat, 1 ≤ ch → ch ≤ 16 →
      let heard : State := { s with swc := line s.swc (some (BitVec.ofNat 8 (191 + ch))) false }
      (s.swc.channel ≠ none → s.swc.channel ≠ some ch → exec (.programChange ch n) s = .next heard) ∧
      ((∀ i : Nat, i < 64 → (bindingAt s i).trigger ≠ .midiPc n) → s.swc.directMap = false →
        exec (.programChange ch n) s = .next heard) ∧
      ((s.swc.channel = none ∨ s.swc.channel = some ch) → (∀ i : Nat, i < 64 → (bindingAt s i).trigger ≠ .midiPc n) →
        s.swc.directMap = true →
        let p := s.swc.bankSelect * 128 + n
        (s.pst.scanning = true → exec (.programChange ch n) s =
          .next (post (.recallFailed (some p) 0 .notReady .directMap) heard)) ∧
        (s.pst.scanning = false → entry s.pst p = none → exec (.programChange ch n) s =
          .next (post (.recallFailed (some p) 0 .notFound .directMap) heard)) ∧
        (∀ e : DirEntry, s.pst.scanning = false → entry s.pst p = some e → s.rcu.state = .idle →
          (∀ bid : BufId, activeBuf s = some bid → (buf s bid).chain.preset ≠ p ∨ (buf s bid).chain.edited = true) →
          s.pst.op = none → s.pst.reads = [] → exec (.programChange ch n) s =
          .next { heard with
            rcu := { s.rcu with flight := some { preset := p, scene := 0, origin := .directMap }, state := .fetching
                                readNo := s.rcu.readNo + 1, fadeDue := false, swapped := false, dip := false, joinedDue := false }
            pst := { s.pst with op := some (.read (.recall (s.rcu.readNo + 1)) e) } })) ∧
      (∀ (i : Nat) (op : FlagOp) (mask : Byte), (s.swc.channel = none ∨ s.swc.channel = some ch) → i < 64 →
        (bindingAt s i).trigger = .midiPc n → (bindingAt s i).cond = none → (bindingAt s i).action = .flag op mask →
        (bindingAt s i).report = false → (∀ j : Nat, j < 64 → j ≠ i → (bindingAt s j).trigger ≠ .midiPc n) →
        exec (.programChange ch n) s = .next { heard with swc := { heard.swc with flags := op.apply mask s.swc.flags } })) ∧
    (∀ (ch c v i th : Nat) (op : FlagOp) (mask : Byte), 1 ≤ ch → ch ≤ 16 → c < 120 → c ≠ 0 →
      (s.swc.channel = none ∨ s.swc.channel = some ch) → i < 64 → (bindingAt s i).trigger = .midiCc c th →
      (bindingAt s i).cond = none → (bindingAt s i).action = .flag op mask → (bindingAt s i).report = false →
      (∀ j : Nat, j < 64 → j ≠ i → ∀ th' : Nat, (bindingAt s j).trigger ≠ .midiCc c th') →
      (∀ k e, k < 8 → Mem.get none s.tne.ctrlMap k = some e → e.source.key ≠ c) →
      exec (.controlChange ch c v) s = .next { s with
        swc := { line s.swc (some (BitVec.ofNat 8 (175 + ch))) false with
          ccPrev := Mem.set 0 s.swc.ccPrev c v
          flags := if Mem.get 0 s.swc.ccPrev c < th ∧ th ≤ v then op.apply mask s.swc.flags else s.swc.flags }
        tne := { s.tne with sources := Mem.set none s.tne.sources c (some (v * 1023 / 127)) } }) ∧
    (∀ (ch : Nat) (c x : Byte), 1 ≤ ch → ch ≤ 16 → x.toNat < 0x80 → s.swc.discard = false →
      (s.swc.running = some (BitVec.ofNat 8 (175 + ch)) → s.swc.gathered = [c] →
        exec (.midiStatusByte x) s = exec (.controlChange ch c.toNat x.toNat) s) ∧
      (s.swc.running = some (BitVec.ofNat 8 (191 + ch)) → s.swc.gathered = [] →
        exec (.midiStatusByte x) s = exec (.programChange ch x.toNat) s)) ∧
    (∀ x : Byte,
      (x = 0xF8 → exec (.midiStatusByte x) s = exec .midiClock s) ∧
      (0xF8 < x.toNat → exec (.midiStatusByte x) s = .next s) ∧
      (0xF0 ≤ x.toNat → x.toNat < 0xF8 → exec (.midiStatusByte x) s = .next { s with swc := line s.swc none true }) ∧
      (0x80 ≤ x.toNat → x.toNat < 0xF0 → exec (.midiStatusByte x) s = .next { s with swc := line s.swc (some x) false }) ∧
      (x.toNat < 0x80 → (s.swc.discard = true ∨ s.swc.running = none) → exec (.midiStatusByte x) s = .next s) ∧
      (∀ st : Byte, x.toNat < 0x80 → s.swc.discard = false → s.swc.running = some st → (st.toNat < 0xC0 ∨ 0xE0 ≤ st.toNat) →
        s.swc.gathered = [] → exec (.midiStatusByte x) s = .next { s with swc := { s.swc with gathered := [x] } })) ∧
    exec .midiFrameError s = .next (countEvent 19 { s with swc := { s.swc with gathered := [] } })

/-- FLAGS works on F0..F5 under its mask and leaves F6 and F7; BIND writes a record and drops its FLIP pointer and firings; READ_BINDING gives the
record's twelve bytes and the pointer (R123, R126). That unused bytes of a record may hold anything (log 57), and which condition bytes are
refused (log 71), is the model's choice. A record fires, here by its program change: with its condition false nothing happens, else BINDING_FIRED
goes out where its report flag is set, and then its action is carried out (R122, R124, R125). RECALL, RECALL_BANK, FLIP, MOMENTARY and RETURN hand
over a recall with their origin, read where the preset is present and failing with BINDING_FAILED and RECALL_FAILED where it is not; a FLIP firing
joins the in-flight list of its record and leaves it, the pointer unmoved, when it fails; MOMENTARY pushes the identity, and is STACK_FULL with
four; RETURN pops, and is STACK_EMPTY with none; SCENE waits for the block boundary; SLOT_TOGGLE toggles its slot, or is BINDING_FAILED without
one; BANK, FLAG, TAP, TUNE and BYPASS do what their commands do (R53, R127 to R131). The conditions of all the records that one trigger fires are
tested against the flags as they stood before the first, and the records fire in index order (R124). -/
def Obligations.FlagsAndBindings : Prop :=
  (∀ (f : Frame) (s : State), Room f.link s →
    let d := destOf f s
    let u := arrived f s
    (∀ op mask : Byte, f.payload = [op, mask] →
      (2 < op.toNat → exec (.flags f) s = .next (answerCode (some d) .badField u)) ∧
      (op.toNat ≤ 2 → ∃ x : Byte, exec (.flags f) s =
          .next (answer (some d) .ok 0 (.flags x) { u with swc := { s.swc with flags := x } }) ∧
        ∀ k : Nat, k < 8 → x.getLsbD k =
          if k < 6 ∧ mask.getLsbD k = true then (if op = 0 then true else if op = 1 then false else !s.swc.flags.getLsbD k)
          else s.swc.flags.getLsbD k)) ∧
    (∀ (i : Byte) (rest : List Byte), f.payload = i :: rest → rest.length = 12 → MayEdit f.link s →
      (63 < i.toNat → exec (.bind f) s = .next (answerCode (some d) .badField u)) ∧
      (parseBinding rest = none → exec (.bind f) s = .next (answerCode (some d) .badField u)) ∧
      (∀ r : Binding, i.toNat < 64 → parseBinding rest = some r → ∃ t : State,
        exec (.bind f) s = .next (answer (some d) .ok 0 .none t) ∧ bindingAt t i.toNat = r ∧ flipAt t i.toNat = {} ∧
        (∀ j : Nat, j ≠ i.toNat → bindingAt t j = bindingAt s j ∧ flipAt t j = flipAt s j) ∧
        t = { u with swc := { s.swc with bindings := t.swc.bindings, flips := t.swc.flips } })) ∧
    (∀ i : Byte, f.payload = [i] →
      (63 < i.toNat → exec (.readBinding f) s = .next (answerCode (some d) .badField u)) ∧
      (i.toNat < 64 → ∃ bytes : List Byte, bytes.length = 13 ∧ exec (.readBinding f) s = .next (answer (some d) .ok 0 (.bytes bytes) u) ∧
        bytes.take 12 = bindingBytes (bindingAt s i.toNat) ∧
        bytes.getLast? = some (if (flipAt s i.toNat).pointer then 1 else 0)))) ∧
  (∀ (s : State) (ch n i : Nat), 1 ≤ ch → ch ≤ 16 → (s.swc.channel = none ∨ s.swc.channel = some ch) → i < 64 →
    (bindingAt s i).trigger = .midiPc n → (∀ j : Nat, j < 64 → j ≠ i → (bindingAt s j).trigger ≠ .midiPc n) →
    let r := bindingAt s i
    let heard : State := { s with swc := { s.swc with
      running := some (BitVec.ofNat 8 (191 + ch)), gathered := [], discard := false } }
    let holds := match r.cond with | none => true | some (k, v) => decide (s.swc.flags.getLsbD k = v)
    let extra : FiredExtra := match r.action with
      | .bank op => .bank (op.apply s.swc.bank)
      | .flag op mask => .flags (op.apply mask s.swc.flags)
      | .flip .. => .pointer (flipAt s i).pointer
      | _ => .none
    let told := if r.report then post (.bindingFired i (.midiPc n) r.action.code extra) heard else heard
    let swcOf := fun (x : Swc) => ({ told with swc := x } : State)
    let fired := fun (t : State) => exec (.programChange ch n) s = .next t
    let failed := fun (c : Code) (v : State) => post (.bindingFailed i (.code c)) v
    let recalled := fun (p sc : Nat) (o : Origin) (lost v : State) =>
      (s.pst.scanning = true → fired (post (.recallFailed (some p) sc .notReady o) (failed .notReady lost))) ∧
      (s.pst.scanning = false → entry s.pst p = none → fired (post (.recallFailed (some p) sc .notFound o) (failed .notFound lost))) ∧
      (∀ e : DirEntry, s.pst.scanning = false → entry s.pst p = some e → s.rcu.state = .idle →
        (∀ bid : BufId, activeBuf s = some bid → (buf s bid).chain.preset ≠ p ∨ (buf s bid).chain.edited = true) →
        s.pst.op = none → s.pst.reads = [] → fired { v with
          rcu := { s.rcu with flight := some { preset := p, scene := sc, origin := o }, state := .fetching
                              readNo := s.rcu.readNo + 1, fadeDue := false, swapped := false, dip := false, joinedDue := false }
          pst := { s.pst with op := some (.read (.recall (s.rcu.readNo + 1)) e) } })
    (holds = false → fired heard) ∧
    (holds = true →
      (∀ p sc : Nat, r.action = .recall p sc → recalled p sc (.binding i) told told) ∧
      (∀ k sc : Nat, r.action = .recallBank k sc → recalled (8 * s.swc.bank + k) sc (.binding i) told told) ∧
      (∀ sc : Nat, r.action = .scene sc → sc ≤ 3 → s.rcu.flight = none →
        (activeBuf s = none → fired told) ∧
        (∀ bid : BufId, activeBuf s = some bid →
          ((buf s bid).chain.scenes.length ≤ sc → fired told) ∧
          (sc < (buf s bid).chain.scenes.length → fired { told with
            rcu := { s.rcu with waiting := s.rcu.waiting ++ [.scene sc (.binding i) none] } }))) ∧
      (∀ p0 s0 p1 s1 : Nat, r.action = .flip p0 s0 p1 s1 →
        let x := flipAt s i
        let m := s.swc.nextFiring
        let listed := fun (l : List Nat) =>
          swcOf { heard.swc with flips := Mem.set {} s.swc.flips i { x with inFlight := l }, nextFiring := m + 1 }
        recalled (if x.pointer then p1 else p0) (if x.pointer then s1 else s0) (.flip i m)
          (listed (x.inFlight.filter (fun y => decide (y ≠ m)))) (listed (x.inFlight ++ [m]))) ∧
      (∀ p sc : Nat, r.action = .momentary p sc →
        let pushed := swcOf { heard.swc with stack := (s.rcu.ident.preset, s.rcu.ident.scene) :: s.swc.stack }
        (4 ≤ s.swc.stack.length → fired (post (.stackFull i) told)) ∧
        (s.swc.stack.length < 4 → recalled p sc (.momentary i) pushed pushed)) ∧
      (r.action = .ret →
        (s.swc.stack = [] → fired (post (.stackEmpty (.binding i)) told)) ∧
        (∀ (p sc : Nat) (rest : List (Option Nat × Nat)), s.swc.stack = (some p, sc) :: rest →
          recalled p sc (.ret (.binding i)) (swcOf { heard.swc with stack := rest }) (swcOf { heard.swc with stack := rest })) ∧
        (∀ (sc : Nat) (rest : List (Option Nat × Nat)), s.swc.stack = (none, sc) :: rest →
          fired (post (.recallFailed none sc .notFound (.ret (.binding i)))
            (failed .notFound (swcOf { heard.swc with stack := rest }))))) ∧
      (∀ (kind : Kind) (nth : Nat), r.action = .slotToggle kind nth →
        (editBuf s = none → fired (post (.bindingFailed i .noTarget) told)) ∧
        (∀ bid : BufId, editBuf s = some bid →
          (nthOfKind kind nth 0 (buf s bid).chain.slots = none → fired (post (.bindingFailed i .noTarget) told)) ∧
          (∀ (j : Nat) (sl : Slot), nthOfKind kind nth 0 (buf s bid).chain.slots = some j → slotAt s bid j = some sl → ∃ y : Slot,
            fired (modSlot bid j (fun _ => y) told) ∧
            (sl.bypass = .engaged → (sl.trail && sl.kind.spills) = false →
              y = { sl with bypass := .bypassed, engage := { v := sl.engage.v, target := 0, count := 256 } }) ∧
            (sl.bypass = .engaged → (sl.trail && sl.kind.spills) = true → y.bypass = .trailing) ∧
            (sl.bypass ≠ .engaged → y.bypass = .engaged ∧ y.run = sl.run)))) ∧
      (∀ op : BankOp, r.action = .bank op → fired (swcOf { heard.swc with bank := match op with
        | .up => if s.swc.bank = 31 then 0 else s.swc.bank + 1
        | .down => if s.swc.bank = 0 then 31 else s.swc.bank - 1
        | .set b => b })) ∧
      (∀ (op : FlagOp) (mask : Byte), r.action = .flag op mask → fired (swcOf { heard.swc with flags := op.apply mask s.swc.flags })) ∧
      (r.action = .tap →
        let now := s.tmp.sampleNo
        let free := s.tmp.midiSource = false ∨ s.tmp.follower.state ≠ .locked
        (s.tmp.midiSource = true → s.tmp.follower.state = .locked → fired (post .tapIgnored told)) ∧
        (free → s.aup.clock ≠ .running → fired { told with tmp := { s.tmp with lastTap := none, intervals := [] } }) ∧
        (free → s.aup.clock = .running → s.tmp.lastTap = none →
          fired { told with tmp := { s.tmp with lastTap := some now, intervals := [] } }) ∧
        (∀ last : Nat, free → s.aup.clock = .running → s.tmp.lastTap = some last → 9600 ≤ now - last → now - last ≤ 72000 →
          let l := (s.tmp.intervals ++ [now - last]).drop ((s.tmp.intervals ++ [now - last]).length - 4)
          let mean := (l.sum + l.length / 2) / l.length
          ∃ t : State, fired t ∧ t.tmp.lastTap = some now ∧ t.tmp.intervals = l ∧
            t.tmp.internal = max 400 (min 3000 ((28800000 + mean / 2) / mean)) ∧ t.swc = heard.swc)) ∧
      (∀ op : OnOff, r.action = .tune op →
        let on := match op with | .on => true | .off => false | .toggle => !s.tun.mode.on
        ∃ t : State, fired t ∧ t.tun = { s.tun with mode := { s.tun.mode with on := on } } ∧
          t.tne.mute = { s.tne.mute with tune := on && decide (s.tun.mode.policy ≠ .live) } ∧
          t.aup.override = (on && decide (s.tun.mode.policy = .dry)) ∧
          t.swc = { heard.swc with flags := if on then s.swc.flags ||| 0x40 else s.swc.flags &&& 0xBF } ∧ t.lkc = told.lkc) ∧
      (∀ op : OnOff, r.action = .bypass op →
        let on := match op with | .on => true | .off => false | .toggle => !s.acd.manual
        let conds : Conds := { s.acd.conds with manual := on }
        (on = s.acd.manual → fired told) ∧
        (on ≠ s.acd.manual → s.acd.relay = .out → (on = true ∨ s.acd.conds.other = true) →
          fired (post (.bypassState false .out conds on) { told with acd := { s.acd with manual := on, conds := conds } })) ∧
        (on = true → s.acd.manual = false → s.acd.relay = .circuit → s.acd.conds.other = false → ∃ t : State, fired t ∧
          t.acd = { s.acd with manual := true, conds := conds, relay := .muting } ∧ t.tne.mute = { s.tne.mute with bypass := true } ∧
          t.swc = heard.swc)))) ∧
  ∀ (s : State) (ch n i j : Nat) (op op' : FlagOp) (mask mask' : Byte) (k : Nat) (v : Bool), 1 ≤ ch → ch ≤ 16 →
    (s.swc.channel = none ∨ s.swc.channel = some ch) → i < j → j < 64 →
    bindingAt s i = { trigger := .midiPc n, action := .flag op mask } →
    bindingAt s j = { trigger := .midiPc n, cond := some (k, v), action := .flag op' mask' } →
    (∀ m : Nat, m < 64 → m ≠ i → m ≠ j → (bindingAt s m).trigger ≠ .midiPc n) →
    let flags := op.apply mask s.swc.flags
    exec (.programChange ch n) s = .next { s with swc := { s.swc with
      running := some (BitVec.ofNat 8 (191 + ch)), gathered := [], discard := false
      flags := if s.swc.flags.getLsbD k = v then op'.apply mask' flags else flags } }

/-- The stored layouts read back. A binding record whose numbers lie in their fields' values reads back from its twelve bytes, and a table of such
records and empty ones from its 768 bytes with no field mended (R123, R201, R202). A PRESET image under a name reads back as the chain's stored
values: name, input selection, fade length, tempo, quantize and relay set, each slot's kind, flags and parameters, and every scene, with nothing
clamped; SAVE_RECORD's strict reading gives the same (R164, R201). A GLOBALS image reads back as the settings it was made from with no field
mended (R155, R175); its 188 bytes in R155's order are deduced (log 6). A controller map entry of a stored GLOBALS whose occurrence lies outside
1..4 is read with the nearer end of that range, and a minimum or maximum outside the parameter's range with the nearer end of it (R55, R175); that
the entry counts as one field mended is the model's choice (log 65). -/
def Obligations.RecordBytesRoundTrip : Prop :=
  let bound := fun r : Binding =>
    (match r.trigger with
      | .none => False
      | .foot k _ => k < 16
      | .panel k _ => 16 ≤ k ∧ k < 24
      | .midiPc n => n < 128
      | .midiCc n th => n < 120 ∧ 1 ≤ th ∧ th < 128) ∧
    (∀ k v, r.cond = some (k, v) → k < 8) ∧
    (match r.action with
      | .recall p sc => p < 256 ∧ sc < 4
      | .recallBank k sc => k < 8 ∧ sc < 4
      | .scene sc => sc < 4
      | .flip p0 s0 p1 s1 => p0 < 256 ∧ s0 < 4 ∧ p1 < 256 ∧ s1 < 4
      | .momentary p sc => p < 256 ∧ sc < 4
      | .slotToggle _ n => 1 ≤ n ∧ n ≤ 4
      | .bank (.set n) => n < 32
      | .none => False
      | _ => True)
  let inRange := fun (k : Kind) (i : Nat) (v : Int) => match k.params[i]? with
    | some (_, least, most) => least ≤ v ∧ v ≤ most
    | none => -32768 ≤ v ∧ v ≤ 32767
  (∀ r : Binding, bound r → (bindingBytes r).length = 12 ∧ parseBinding (bindingBytes r) = some r) ∧
  (∀ m : Mem Binding, (∀ i : Nat, i < 64 → Mem.get {} m i = {} ∨ bound (Mem.get {} m i)) →
    (bindingsImage m).length = 768 ∧ (parseBindings (bindingsImage m)).2 = 0 ∧
    ∀ i : Nat, Mem.get {} (parseBindings (bindingsImage m)).1 i = if i < 64 then Mem.get {} m i else {}) ∧
  (∀ (c : Chain) (name : List Byte) (strict : Bool), name.length ≤ 16 → 0 ∉ name → c.fadeLen < 65536 →
    (∀ x : Nat, c.tempo = some x → 400 ≤ x ∧ x ≤ 3000) → c.slots.length ≤ 12 → 1 ≤ c.scenes.length → c.scenes.length ≤ 4 →
    (∀ sl ∈ c.slots, sl.params.length = sl.kind.params.length ∧ (∀ i : Nat, i < sl.params.length → inRange sl.kind i (sl.params.getD i 0)) ∧
      (sl.spill = true ∨ sl.trail = true → sl.kind = .delay ∨ sl.kind = .reverb)) →
    (∀ sc ∈ c.scenes, sc.ramp ≤ 8192 ∧ sc.overrides.length ≤ 8 ∧ ∀ o ∈ sc.overrides, o.slot < 256 ∧ o.param < 256 ∧
      (match c.slots[o.slot]? with
        | some sl => inRange sl.kind o.param o.value
        | none => -32768 ≤ o.value ∧ o.value ≤ 32767)) →
    parsePreset strict (presetImage c name) = some ({
      name := name, input := c.input, fadeLen := c.fadeLen, tempo := c.tempo, quantize := c.quantize, relays := c.relays
      slots := c.slots.map (fun sl =>
        { kind := sl.kind, defBypass := sl.defBypass, spill := sl.spill, trail := sl.trail, params := sl.params })
      scenes := c.scenes }, false)) ∧
  ∀ g : Globals, g.lock.size ≤ 6 → 4000 ≤ g.ref → g.ref ≤ 4800 → (g.window = 0 ∨ g.window = 4 ∨ g.window = 5 ∨ g.window = 6) →
    200 ≤ g.holdTime → g.holdTime ≤ 2000 → (∀ n : Nat, g.midiChannel = some n → 1 ≤ n ∧ n ≤ 16) → g.boot < 256 →
    g.ins.length = 8 → (∀ r ∈ g.ins, r.trim ≤ 32767 ∧ r.threshold < 65536 ∧ r.loopback ≤ 8) →
    g.outs.length = 8 → (∀ r ∈ g.outs, r.trim ≤ 32767) → g.ctrlMap.length = 8 →
    (∀ e : MapEntry, some e ∈ g.ctrlMap → (∀ n : Nat, e.source = .cc n → n < 120) ∧ 1 ≤ e.occ ∧ e.occ ≤ 4 ∧
      e.kind.cls e.param = some .continuous ∧ inRange e.kind e.param e.min ∧ inRange e.kind e.param e.max) →
    (globalsImage g).length = 188 ∧ parseGlobals (globalsImage g) = (g, 0) ∧
    ∀ (k : Nat) (e : MapEntry) (least most : Int), k < 8 → e.kind.params[e.param]? = some (.continuous, least, most) → e.occ < 256 →
      (∀ n : Nat, e.source = .cc n → n < 120) → (e.kind = .gate → 0 ≤ e.min ∧ e.min ≤ 65535 ∧ 0 ≤ e.max ∧ e.max ≤ 65535) →
      (e.kind ≠ .gate → -32768 ≤ e.min ∧ e.min ≤ 32767 ∧ -32768 ≤ e.max ∧ e.max ≤ 32767) →
      let mended := { e with
        occ := max 1 (min 4 e.occ), min := max least (min most e.min), max := max least (min most e.max) }
      parseGlobals (globalsImage { g with ctrlMap := g.ctrlMap.set k (some e) }) =
        ({ g with ctrlMap := g.ctrlMap.set k (some mended) }, if mended = e then 0 else 1)

/-! ## Recalls -/

/-- RECALL: bad fields are refused (R202); while the store is SCANNING, or with the preset absent, it fails with RECALL_FAILED; in IDLE it waits
for the block boundary as a scene-only recall where the ACTIVE chain is that preset and generation, unedited (R135), and else, the flash free, its
record is read; over a recall whose build is READY it answers that one SUPERSEDED, empties its buffer and is read (R141); in FADING it goes to the
pending slot; a FLIP firing that is superseded leaves the in-flight list and its pointer stays (R128). SCENE in IDLE waits for the block boundary,
or is NOT_READY or NOT_FOUND; in FETCHING it joins the recall in flight, and in ARMED the READY buffer is set up again for it, as ChainSetUp says
(R48, R134, R136, R137, R142, R143, R148), noted PAGES_CLAMPED where a region then clamps its delay (R30; by deduction, log 48). That the fade
length is disregarded where the fade override is absent is the model's choice (log 67). -/
def Obligations.RecallAndSceneTaken : Prop :=
  ∀ (f : Frame) (s : State), Room f.link s →
    let d := destOf f s
    let u := arrived f s
    let org := Origin.link f.link f.tag
    (∀ n sc q g hi lo : Byte, f.payload = [n, sc, q, g, hi, lo] →
      let r : Recall := {
        preset := n.toNat, scene := sc.toNat, quant := if q = 0 then some false else if q = 1 then some true else none
        fade := if g = 1 then some (256 * hi.toNat + lo.toNat) else none, origin := org, dest := some d }
      (3 < sc.toNat ∨ 2 < q.toNat ∨ 1 < g.toNat → exec (.recall f) s = .next (answerCode (some d) .badField u)) ∧
      (sc.toNat ≤ 3 → q.toNat ≤ 2 → g.toNat ≤ 1 →
        (s.pst.scanning = true → exec (.recall f) s =
          .next (post (.recallFailed (some n.toNat) sc.toNat .notReady org) (answerCode (some d) .notReady u))) ∧
        (s.pst.scanning = false → entry s.pst n.toNat = none → exec (.recall f) s =
          .next (post (.recallFailed (some n.toNat) sc.toNat .notFound org) (answerCode (some d) .notFound u))) ∧
        (∀ e : DirEntry, s.pst.scanning = false → entry s.pst n.toNat = some e →
          let held := fun bid : BufId => (buf s bid).chain.preset = n.toNat ∧ (buf s bid).chain.gen = e.gen ∧ (buf s bid).chain.edited = false
          let fetched := fun (r : Recall) (v : State) => { v with
            rcu := { v.rcu with flight := some r, state := .fetching, readNo := s.rcu.readNo + 1, fadeDue := false
                                swapped := false, dip := false, joinedDue := false }
            pst := { s.pst with op := some (.read (.recall (s.rcu.readNo + 1)) e) } }
          (s.rcu.state = .idle → (∀ bid : BufId, activeBuf s = some bid → ¬held bid) → s.pst.op = none → s.pst.reads = [] →
            exec (.recall f) s = .next (fetched r u)) ∧
          (∀ bid : BufId, s.rcu.state = .idle → activeBuf s = some bid → held bid → exec (.recall f) s =
            .next { u with rcu := { s.rcu with waiting := s.rcu.waiting ++ [.sceneOnly r] } }) ∧
          (∀ (old : Recall) (k : Link) (tag : Byte), s.rcu.flight = some old → old.joined = none → old.origin = .link k tag →
            s.rcu.state = .armed ∨ s.rcu.state = .relays ∨ s.rcu.state = .loading → (buf s s.rcu.build).state = .ready →
            s.lma.requests = none → s.pst.op = none → s.pst.reads = [] →
            exec (.recall f) s = .next (fetched { r with boot := old.boot }
              (emptyBuffer s.rcu.build (answerCode old.dest .superseded u)))) ∧
          (∀ (old : Recall) (j m : Nat), s.rcu.flight = some old → old.joined = none → old.origin = .flip j m → s.rcu.state = .armed →
            (buf s s.rcu.build).state = .ready → s.lma.requests = none → s.pst.op = none → s.pst.reads = [] →
            let x := flipAt s j
            let left : Flip := { x with inFlight := x.inFlight.filter (fun y => decide (y ≠ m)) }
            let v := answerCode old.dest .superseded u
            exec (.recall f) s = .next (fetched { r with boot := old.boot } (emptyBuffer s.rcu.build
              { v with swc := { s.swc with flips := if m ∈ x.inFlight then Mem.set {} s.swc.flips j left else s.swc.flips } })))) ∧
        (∀ e : DirEntry, s.pst.scanning = false → entry s.pst n.toNat = some e → s.rcu.state = .fading → s.rcu.pending = none →
          exec (.recall f) s = .next { u with rcu := { s.rcu with pending := some r } }))) ∧
    (∀ k : Byte, f.payload = [k] →
      (3 < k.toNat → exec (.scene f) s = .next (answerCode (some d) .badField u)) ∧
      (k.toNat ≤ 3 → s.rcu.flight = none → activeBuf s = none → exec (.scene f) s = .next (answerCode (some d) .notReady u)) ∧
      (∀ bid : BufId, k.toNat ≤ 3 → s.rcu.flight = none → activeBuf s = some bid →
        ((buf s bid).chain.scenes.length ≤ k.toNat → exec (.scene f) s = .next (answerCode (some d) .notFound u)) ∧
        (k.toNat < (buf s bid).chain.scenes.length → exec (.scene f) s =
          .next { u with rcu := { s.rcu with waiting := s.rcu.waiting ++ [.scene k.toNat org (some d)] } })) ∧
      (∀ r : Recall, k.toNat ≤ 3 → s.rcu.flight = some r → s.rcu.pending = none → s.rcu.state = .fetching → r.joined = none →
        exec (.scene f) s = .next { u with rcu := { s.rcu with
          flight := some { r with scene := k.toNat, joined := some ⟨some d, r.scene⟩ } } }) ∧
      (∀ r : Recall, s.rcu.flight = some r → s.rcu.pending = none → s.rcu.state = .armed → s.rcu.swapped = false → r.joined = none →
        let bid := s.rcu.build
        let c := setupChain s.tne s.lma s.tmp.beat k.toNat (buf s bid).chain
        let short := c.slots.any (fun sl => decide (sl.kind = .delay ∧ sl.voice.region ≠ none ∧
          max 1 ((regionLen s.lma sl.voice.region : Int) - 1) <
            (if sl.run.getD 1 0 = 0 then sl.run.getD 0 0 * 48 else syncLength s.tmp.beat (sl.run.getD 1 0))))
        k.toNat ≤ 3 → k.toNat < (buf s bid).chain.scenes.length → (buf s bid).chain.relays = none →
        (∀ sc ∈ (buf s bid).chain.scenes, sc.relays = none) →
        ∃ t : State, exec (.scene f) s = .next t ∧ t = { u with tne := t.tne, rcu := t.rcu } ∧ buf t bid = { buf s bid with chain := c } ∧
          buf t (otherBuf bid) = buf s (otherBuf bid) ∧ t.rcu = { s.rcu with flight := some { r with
            scene := k.toNat, joined := some ⟨some d, r.scene⟩, notes := if short then r.notes ||| 8 else r.notes } }))

/-- SCENE_APPLICATION and SCENE_ONLY_RECALL take the first waiting item at a block boundary: the scene becomes the ACTIVE buffer's and the
identity's, each slot is engaged or bypassed as the scene says and takes the scene's values, those of its overrides among them, over the scene's
ramp, inside a dip or at once (a D-class value is compared with the one pending, log 24, and a mix that comes while the slot is not ENGAGED is stored,
an equal value included, log 23: both deduced), its relay set is handed over without waiting,
and the item leaves the list; another kind of item leaves the state as it stands, and so does either row where no block boundary stands (R49, R50,
R51, R135, R136). A scene-only recall applies scene 0 where the buffer does not hold its scene, and then completes: tune mode ends where it is to
exit on a recall (R94, R96, R97), the buffer's tempo becomes the internal tempo where presets set it (R111), RECALL_DONE is posted with kind
SCENE_ONLY and the identity's preset and generation, and the recall and a SCENE that joined it are answered OK (R135, R147); one of a FLIP firing
leaves the in-flight list and toggles its pointer, and a PLAIN or FLIP one empties the return stack (R127, R128). A boot recall is never
scene-only (R149). A DELAY's target 1 without a region is the model's choice (log 85). -/
def Obligations.BoundaryScenesApply : Prop :=
  (∀ s : State, (s.aup.clock ≠ .running ∨ s.tne.blockPos ≠ 0) → exec .sceneApplication s = .next s ∧ exec .sceneOnlyRecall s = .next s) ∧
  ∀ (s : State) (bid : BufId) (rest : List BoundaryItem), s.aup.clock = .running → s.tne.blockPos = 0 → activeBuf s = some bid →
    let c := (buf s bid).chain
    let applied := fun (n : Nat) (t : State) =>
      (buf t bid).chain.scene = n ∧ t.rcu.waiting = rest ∧ (buf t bid).chain.slots.length = c.slots.length ∧
      (∀ (i : Nat) (sl : Slot), c.slots[i]? = some sl → ∃ y : Slot, (buf t bid).chain.slots[i]? = some y ∧
        (y.bypass = .engaged ↔ xor sl.defBypass ((c.scenes.getD n {}).bypass.getLsbD i) = false) ∧
        y.params = sl.params ∧ y.kind = sl.kind ∧ y.voice.region = sl.voice.region ∧ SceneMoves s.tne s.lma c.slots (c.scenes.getD n {}) i sl y ∧
        (sl.kind = .level → mapHolds s.tne c.slots i 0 = none → 0 < sl.run.length → 0 < (c.scenes.getD n {}).ramp →
          (∀ o ∈ (c.scenes.getD n {}).overrides, ¬(o.slot = i ∧ o.param = 0)) →
          let v := clampInt 0 1023 (sl.params.getD 0 0)
          y.run = sl.run.set 0 v ∧
          y.voice.b = { v := sl.voice.b.v, target := v * 32, count := (c.scenes.getD n {}).ramp })) ∧
      buf t (otherBuf bid) = buf s (otherBuf bid) ∧ t.pst = s.pst ∧ t.lma = s.lma
    (∀ (n : Nat) (o : Origin) (dest : Option Dest), s.rcu.waiting = .scene n o dest :: rest → c.scenes.length ≤ n →
      exec .sceneApplication s = .next (answerCode dest .notFound { s with rcu := { s.rcu with waiting := rest } })) ∧
    (∀ (n : Nat) (o : Origin) (dest : Option Dest), s.rcu.waiting = .scene n o dest :: rest → n < c.scenes.length →
      (c.scenes.getD n {}).relays = none →
      (∃ t : State, exec .sceneApplication s = .next (answerCode dest .ok (post (.sceneDone n o) t)) ∧ applied n t ∧
        t.rcu.ident = { s.rcu.ident with scene := n } ∧ t.aup = s.aup ∧ t.tun = s.tun ∧ t.tmp = s.tmp ∧ t.swc = s.swc ∧ t.acd = s.acd ∧
        t.lkc = s.lkc) ∧
      exec .sceneOnlyRecall s = .next s) ∧
    (∀ (n : Nat) (o : Origin) (dest : Option Dest) (rel : RelaySet), s.rcu.waiting = .scene n o dest :: rest → n < c.scenes.length →
      (c.scenes.getD n {}).relays = some rel → ∃ t : State,
        exec .sceneApplication s = .next (answerCode dest .ok (post (.sceneDone n o) t)) ∧ applied n t ∧
        t.acd = (handRelaySet rel s).1.acd ∧ t.aup = (handRelaySet rel s).1.aup ∧ t.rcu.ident = { s.rcu.ident with scene := n } ∧
        t.swc = s.swc ∧ t.lkc = s.lkc) ∧
    (∀ r : Recall, s.rcu.waiting = .sceneOnly r :: rest → r.boot = false →
      let n := if r.scene < c.scenes.length then r.scene else 0
      (∃ v x y t : State, exec .sceneOnlyRecall s = .next t ∧ applied n v ∧ v.tun = s.tun ∧ v.tmp = s.tmp ∧ v.swc = s.swc ∧ v.lkc = s.lkc ∧
        v.tne = { s.tne with bufA := v.tne.bufA, bufB := v.tne.bufB } ∧
        v.rcu = { s.rcu with waiting := rest, ident := { s.rcu.ident with scene := n } } ∧
        ((c.scenes.getD n {}).relays = none → v.aup = s.aup ∧ v.acd = s.acd) ∧
        (∀ rel : RelaySet, (c.scenes.getD n {}).relays = some rel → v.acd = (handRelaySet rel s).1.acd ∧ v.aup = (handRelaySet rel s).1.aup) ∧
        (s.tun.mode.on = false ∨ s.tun.mode.exitOnRecall = false → x = v) ∧
        (s.tun.mode.on = true → s.tun.mode.exitOnRecall = true →
          x.tun = { s.tun with mode := { s.tun.mode with on := false } } ∧ x.tne.mute = { s.tne.mute with tune := false } ∧
          x.tne = { v.tne with mute := x.tne.mute, muteRamp := x.tne.muteRamp, busNotice := x.tne.busNotice } ∧
          x.aup.override = false ∧ x.aup.inLanes = v.aup.inLanes ∧ x.swc = { s.swc with flags := s.swc.flags &&& 0xBF } ∧
          x = { v with aup := x.aup, tne := x.tne, tun := x.tun, swc := x.swc }) ∧
        (s.tmp.presetSets = false ∨ c.tempo = none → y = x) ∧
        (∀ tempo : Nat, s.tmp.presetSets = true → c.tempo = some tempo →
          let given := max 400 (min 3000 tempo)
          Paced none x y ∧ y = { x with tmp := y.tmp, tne := y.tne, lkc := y.lkc } ∧
          y.tmp = { s.tmp with internal := given, lastTap := none, intervals := [], tempo := y.tmp.tempo, beat := y.tmp.beat
                               heldTempo := y.tmp.heldTempo, heldBeat := y.tmp.heldBeat } ∧
          (if s.tmp.midiSource = true ∧ s.tmp.follower.state ≠ .locked then
            y.tmp.heldTempo = given ∧ y.tmp.heldBeat = (28800000 + given / 2) / given
          else y.tmp.heldTempo = s.tmp.heldTempo ∧ y.tmp.heldBeat = s.tmp.heldBeat)) ∧
        (let done := post (.recallDone (s.rcu.ident.preset.getD r.preset) n s.rcu.ident.gen .sceneOnly r.origin r.notes) y
         let answered := answer r.dest .ok r.notes .none done
         t.lkc = (match r.joined with | some j => answerCode j.dest .ok answered | none => answered).lkc) ∧
        t = { y with lkc := t.lkc, swc := t.swc } ∧ t.swc = { x.swc with stack := t.swc.stack, flips := t.swc.flips } ∧
        t.rcu.flight = s.rcu.flight ∧ (r.origin.emptiesStack = true → t.swc.stack = []) ∧
        (r.origin.emptiesStack = false → t.swc.stack = s.swc.stack) ∧
        (∀ j m : Nat, r.origin = .flip j m → m ∈ (flipAt s j).inFlight → (∀ i : Nat, i ≠ j → flipAt t i = flipAt s i) ∧
          flipAt t j = { pointer := !(flipAt s j).pointer, inFlight := (flipAt s j).inFlight.filter (fun y => decide (y ≠ m)) }) ∧
        ((∀ j m : Nat, r.origin = .flip j m → m ∉ (flipAt s j).inFlight) → t.swc.flips = s.swc.flips)) ∧
      exec .sceneApplication s = .next s) ∧
    (s.rcu.waiting = [] → exec .sceneApplication s = .next s ∧ exec .sceneOnlyRecall s = .next s)

/-- FADE_START enters FADING. Within the budget the swap may follow at once. Above it the units missing are asked of the tails: records are
marked, oldest first, until the units of the remnants and of the marked records reach them or none is left, and cut as far as there are places; a
swap and a midpoint wait for the release. Where the count falls short the fade is a dip: the ACTIVE buffer falls over half the fade length and the
recall is told DIPPED. SWAP makes the build buffer ACTIVE and rising and the old one OUTGOING and falling, each over the fade length, 64 for 0;
with no ACTIVE buffer, as at the boot recall, only the new fade gain moves; SwapLeavesTails says what becomes of the two chains' slots. MIDPOINT
makes the build buffer ACTIVE and rising and empties the old one. FADE_END empties the OUTGOING buffer, if there is one, takes the identity from
the ACTIVE one and leaves the unit IDLE; it posts RECALL_DONE and answers the recall, and a SCENE that joined it, OK with the notes; with the boot
role START leaves the mute set and STARTING ends; tune mode ends where it is to exit on a recall, and the record's tempo is taken where presets
set it, with TEMPO_VALUE where the tempo in use moves (R47, R58, R76, R97, R111, R112, R132, R144 to R147). A PLAIN or FLIP recall that completes
empties the return stack, and a FLIP firing leaves the in-flight list and toggles its pointer (R127, R128). A pending recall is then served as one
newly taken in IDLE, with a new lookup: with the preset absent it fails with NOT_FOUND (stated for a recall of a link); it waits for the boundary
as a scene-only recall where the chain that has become ACTIVE is that preset and generation, unedited; otherwise, the flash free, its record is
read (R134, R135, R142, R143, R148). -/
def Obligations.FadeMoves : Prop :=
  ∀ (s : State) (r : Recall), s.aup.clock = .running → s.tne.blockPos = 0 → s.rcu.flight = some r →
    let new := s.rcu.build
    let old := otherBuf new
    let len := r.fade.getD (buf s new).chain.fadeLen
    let fades : State := { s with rcu := { s.rcu with state := .fading, fadeDue := false, swapped := false, dip := false } }
    let need := slotsCost (buf s new).chain.slots + (match activeBuf s with | some bid => slotsCost (buf s bid).chain.slots | none => 0) +
      tailsCost s.tne
    (s.rcu.fadeDue = true → need ≤ 2048 → exec .fadeStart s = .next fades) ∧
    (s.rcu.fadeDue = true → 2048 < need → s.tne.tails.length ≤ 4 → (∀ tl ∈ s.tne.tails, tl.marked = false) →
      let coming := fun k : Nat => ((remnantList s.tne).map (fun g => g.kind.cost)).sum + ((s.tne.tails.take k).map (fun tl => tl.kind.cost)).sum
      let counting := fun m : Nat => ({ fades with tne := { s.tne with
        tails := s.tne.tails.mapIdx (fun k tl => { tl with marked := decide (k < m), counted := decide (k < m) })
        remnants := s.tne.remnants.map (fun e => (e.1, e.2.map (fun g => { g with counted := true }))) } } : State)
      ∃ (m : Nat) (v₁ v₂ v₃ v₄ : State) (waits : Bool),
        m ≤ s.tne.tails.length ∧ (∀ k : Nat, k < m → coming k < need - 2048) ∧ (m < s.tne.tails.length → need - 2048 ≤ coming m) ∧
        exec .markedTailCut (counting m) = .next v₁ ∧ exec .markedTailCut v₁ = .next v₂ ∧ exec .markedTailCut v₂ = .next v₃ ∧
        exec .markedTailCut v₃ = .next v₄ ∧
        (waits = true ↔ (∃ tl ∈ v₄.tne.tails, tl.counted = true) ∨ ∃ g ∈ remnantList v₄.tne, g.counted = true) ∧
        let asked : State := { v₄ with tne := { v₄.tne with release := waits } }
        (need - 2048 ≤ coming m → exec .fadeStart s = .next asked) ∧
        (coming m < need - 2048 → exec .fadeStart s = .next
          (let dips : State := { asked with rcu := { asked.rcu with
             dip := true, flight := asked.rcu.flight.map (fun r => { r with notes := r.notes ||| 2 }) } }
           match activeBuf s with
           | some bid => modChain bid (fun c => { c with fade :=
               if len = 1 then ⟨0, 0, 0⟩ else { v := c.fade.v, target := 0, count := if len = 0 then 64 else len / 2 } }) dips
           | none => dips))) ∧
    (s.rcu.fadeDue = false → exec .fadeStart s = .next s) ∧
    (s.tne.release = true → exec .swap s = .next s ∧ exec .midpoint s = .next s) ∧
    (s.rcu.state = .fading → s.rcu.swapped = false → s.tne.release = false → (buf s new).state = .ready →
      ((buf s old).state = .active →
        (s.rcu.dip = false → ∃ t : State, exec .swap s = .next t ∧
          (buf t new).state = .active ∧ (buf t old).state = .outgoing ∧ t.rcu.swapped = true ∧ t.rcu.state = .fading ∧
          (buf t new).chain.fade = { v := 0, target := 8192, count := if len = 0 then 64 else len } ∧
          (buf t old).chain.fade = { v := (buf s old).chain.fade.v, target := 0, count := if len = 0 then 64 else len } ∧
          (buf t new).chain.preset = (buf s new).chain.preset ∧
          t.aup = s.aup ∧ t.tun = s.tun ∧ t.tmp = s.tmp ∧ t.swc = s.swc ∧ t.pst = s.pst ∧ t.acd = s.acd ∧ t.lkc = s.lkc) ∧
        (s.rcu.dip = true → (buf s old).chain.fade.v = 0 → (buf s old).chain.fade.count = 0 →
          ∃ t : State, exec .midpoint s = .next t ∧
          (buf t new).state = .active ∧ (buf t old).state = .empty ∧ t.rcu.swapped = true ∧ t.rcu.state = .fading ∧
          (buf t new).chain.fade = (if len = 1 then ⟨8192, 8192, 0⟩ else { v := 0, target := 8192, count := if len = 0 then 64 else len / 2 }) ∧
          t.aup = s.aup ∧ t.tun = s.tun ∧ t.tmp = s.tmp ∧ t.swc = s.swc ∧ t.pst = s.pst ∧ t.acd = s.acd ∧ t.lkc = s.lkc)) ∧
      ((buf s old).state = .empty → s.rcu.dip = false → ∃ t : State, exec .swap s = .next t ∧
        (buf t new).state = .active ∧ (buf t new).chain.preset = (buf s new).chain.preset ∧
        (buf t new).chain.fade = { v := 0, target := 8192, count := if len = 0 then 64 else len } ∧
        t.rcu = { s.rcu with swapped := true, flight := t.rcu.flight } ∧
        t = { s with rcu := t.rcu, tne := { s.tne with bufA := t.tne.bufA, bufB := t.tne.bufB } } ∧ buf t old = buf s old)) ∧
    (s.rcu.state = .fading → s.rcu.swapped = true → s.rcu.joinedDue = false → (buf s new).state = .active →
      ((buf s old).state = .outgoing ∨ buf s old = {}) → (buf s new).chain.fade.count = 0 → s.rcu.pending = none →
      let c := (buf s new).chain
      ∃ t : State, exec .fadeEnd s = .next t ∧ buf t old = {} ∧
        (buf t new).chain.slots.length = c.slots.length ∧ t.rcu.state = .idle ∧ t.rcu.flight = none ∧ t.rcu.pending = none ∧
        t.rcu.ident = { preset := some c.preset, scene := c.scene, gen := c.gen, edited := c.edited } ∧
        (let source := if s.tmp.midiSource = false then TempoFrom.internal else if s.tmp.follower.state = .locked then .midi else .held
         let paced := if t.tmp.tempo = s.tmp.tempo then s else post (.tempoValue t.tmp.tempo t.tmp.beat source) s
         let done := post (.recallDone c.preset c.scene c.gen r.kind r.origin r.notes)
           (if r.boot then changeConds (fun x => { x with starting := false }) paced else paced)
         let answered := answer r.dest .ok r.notes .none done
         t.lkc = (match r.joined with | some x => answerCode x.dest .ok answered | none => answered).lkc) ∧
        t.tun.mode = { s.tun.mode with on := s.tun.mode.on && !s.tun.mode.exitOnRecall } ∧
        t.tmp.internal = (if s.tmp.presetSets then (match c.tempo with | some x => max 400 (min 3000 x) | none => s.tmp.internal)
          else s.tmp.internal) ∧
        t.tne.mute.start = (s.tne.mute.start && !r.boot) ∧ t.acd.conds.starting = (s.acd.conds.starting && !r.boot) ∧
        t.swc.stack = (if r.origin.emptiesStack then [] else s.swc.stack) ∧
        (∀ j m : Nat, r.origin = .flip j m → m ∈ (flipAt s j).inFlight → (∀ i : Nat, i ≠ j → flipAt t i = flipAt s i) ∧
          flipAt t j = { pointer := !(flipAt s j).pointer, inFlight := (flipAt s j).inFlight.filter (fun y => decide (y ≠ m)) }) ∧
        ((∀ j m : Nat, r.origin = .flip j m → m ∉ (flipAt s j).inFlight) → t.swc.flips = s.swc.flips) ∧
        t.pst = s.pst ∧ t.lma.mem = s.lma.mem ∧
        (Mem.Wf none s.lma.regions → ∀ (id : Nat) (x : Region), Mem.get none s.lma.regions id = some x →
          Mem.get none t.lma.regions id = if (buf s old).state = .outgoing ∧ x.owner.ofBuffer old then none else some x)) ∧
    (∀ p : Recall, s.rcu.state = .fading → s.rcu.swapped = true → s.rcu.joinedDue = false → (buf s new).state = .active →
      ((buf s old).state = .outgoing ∨ buf s old = {}) → (buf s new).chain.fade.count = 0 → s.rcu.pending = some p →
      ∃ v : State, exec .fadeEnd { s with rcu := { s.rcu with pending := none } } = .next v ∧ activeBuf v = some new ∧ v.rcu.state = .idle ∧
        let refused := fun code : Code =>
          let w := answerCode p.dest code v
          post (.recallFailed (some p.preset) p.scene code p.origin) (match p.joined with | some x => answerCode x.dest code w | none => w)
        let waits := fun (q : Recall) (w : State) => ({ w with rcu := { w.rcu with waiting := w.rcu.waiting ++ [.sceneOnly q] } } : State)
        (∀ (k : Link) (tag : Byte), p.origin = .link k tag →
          (s.pst.scanning = true → exec .fadeEnd s = .next (refused .notReady)) ∧
          (s.pst.scanning = false → entry s.pst p.preset = none → exec .fadeEnd s = .next (refused .notFound))) ∧
        (∀ e : DirEntry, s.pst.scanning = false → entry s.pst p.preset = some e →
          let c := (buf v new).chain
          (c.preset = p.preset ∧ c.gen = e.gen ∧ c.edited = false →
            (p.joined = none ∨ p.scene < c.scenes.length → exec .fadeEnd s = .next (waits p v)) ∧
            (∀ x : Joined, p.joined = some x → c.scenes.length ≤ p.scene → exec .fadeEnd s =
              .next (waits { p with scene := x.before, joined := none } (answerCode x.dest .notFound v)))) ∧
          (¬(c.preset = p.preset ∧ c.gen = e.gen ∧ c.edited = false) → s.pst.op = none → s.pst.reads = [] → exec .fadeEnd s = .next { v with
            rcu := { v.rcu with flight := some p, state := .fetching, readNo := s.rcu.readNo + 1, fadeDue := false
                                swapped := false, dip := false, joinedDue := false }
            pst := { s.pst with op := some (.read (.recall (s.rcu.readNo + 1)) e) } })))

/-- What becomes of the spill slots of a chain that is left, and of the chain that takes its place. A DELAY or REVERB slot with its spill flag and
a region that is not BYPASSED is offered in chain order and, with fewer than four tails, becomes the newest: lowest free index, the slot's voice
with the input gain falling to 0 over 64, phase, hold count and wet gain by the slot's state; the region changes owner and keeps its pages, and
the slot becomes a stub with its dry path. With four tails the oldest is cut first (TailEventsFreeRecords has the cut), which the recall is told
as TAILS_CUT, and with no remnant place free the slot stays as it is and the recall is told the same (R69 to R72). At a swap every slot is
offered; at the midpoint of a dip one is offered only while the incoming chain and the tails admitted there leave it room in 2048 units, one that
is not gives TAILS_CUT, and the old buffer is then emptied with the regions it still owns (R146). The new chain has THRU decided anew, and each
live entry of the controller map, in index order, is applied to it with length 0, or 512 for a DELAY time (R46, R57); the recall is told
MODEL_MISSING and EDITS_DISCARDED where they hold (R54). That a TRAILING slot whose hold has run out at 0 with its event still to come falls first
over 256 is the model's choice (log 2), and so is a DELAY's target 1 without a region (log 85). That a mix from the map is stored while the slot
is not ENGAGED, an equal value included, is deduced (log 23). -/
def Obligations.SwapLeavesTails : Prop :=
  let told := fun (note : Byte) (v : State) =>
    ({ v with rcu := { v.rcu with flight := v.rcu.flight.map (fun r => { r with notes := r.notes ||| note }) } } : State)
  let offered := fun sl : Slot => (sl.kind = .delay ∨ sl.kind = .reverb) ∧ sl.spill = true ∧ sl.voice.region ≠ none ∧ sl.stub = false ∧
    sl.bypass ≠ .bypassed
  let admitted := fun (bid : BufId) (i : Nat) (sl : Slot) (u t : State) => ∃ tl : Tail,
    t.tne.tails = u.tne.tails ++ [tl] ∧ tl.index < 4 ∧ (∀ x ∈ u.tne.tails, x.index ≠ tl.index) ∧
    (∀ j : Nat, j < tl.index → ∃ x ∈ u.tne.tails, x.index = j) ∧
    tl = { index := tl.index, preset := (buf u bid).chain.preset, kind := sl.kind, hold := tl.hold, phase := tl.phase, source := some (bid, i)
           voice := { sl.voice with input := { v := sl.voice.input.v, target := 0, count := 64 }, wet := tl.voice.wet } } ∧
    (let gain := max (-8388608) (min 8388607 ((sl.voice.wet.v * sl.engage.v + 4096) / 8192))
     (sl.bypass = .engaged → tl.phase = .ringing ∧ tl.voice.wet = ⟨gain, gain, 0⟩ ∧
       tl.hold = (if sl.kind = .delay then sl.run.getD 5 0 else sl.run.getD 2 0).toNat * 48) ∧
     (sl.bypass = .trailing → sl.falling = false → 0 < sl.hold → tl.phase = .ringing ∧ tl.voice.wet = ⟨gain, gain, 0⟩ ∧ tl.hold = sl.hold) ∧
     (sl.bypass = .trailing → sl.falling = true → tl.phase = .decay ∧ tl.voice.wet = sl.voice.wet ∧ tl.hold = 0) ∧
     (sl.bypass = .trailing → sl.falling = false → sl.hold = 0 →
       tl.phase = .decay ∧ tl.voice.wet = { v := sl.voice.wet.v, target := 0, count := 256 } ∧ tl.hold = 0)) ∧
    (∀ j : Nat, slotAt t bid j = if j = i then some { sl with stub := true, voice := { dry := sl.voice.dry } } else slotAt u bid j) ∧
    (∀ id j : Nat, sl.voice.region = some id → Mem.get none t.lma.regions j =
      if j = id then (Mem.get none u.lma.regions id).map (fun r => ⟨.tail tl.index, r.pages⟩) else Mem.get none u.lma.regions j) ∧
    t = { u with lma := { u.lma with regions := t.lma.regions }
                 tne := { u.tne with tails := t.tne.tails, bufA := t.tne.bufA, bufB := t.tne.bufB } } ∧
    buf t bid = { buf u bid with chain := { (buf u bid).chain with slots := (buf t bid).chain.slots } } ∧ buf t (otherBuf bid) = buf u (otherBuf bid)
  let news := fun (new : BufId) (edits : Bool) (v t : State) => ∃ (after : Nat → List Slot) (missing : Bool),
    (buf t new) = { buf v new with state := .active, chain := { (buf v new).chain with slots := after 8, fade := (buf t new).chain.fade } } ∧
    (after 0).length = (buf v new).chain.slots.length ∧
    (∀ (i : Nat) (sl : Slot), slotAt v new i = some sl →
      ∃ th : Bool, (after 0)[i]? = some { sl with thru := th } ∧ (th = true ↔ RunsThru v.tne v.lma sl)) ∧
    (∀ q : Nat, q < 8 →
      ((∀ (e : MapEntry) (x : Nat), Mem.get none v.tne.ctrlMap q = some e → Mem.get none v.tne.sources e.source.key = some x →
          nthOfKind e.kind e.occ 0 (after q) = none) → after (q + 1) = after q) ∧
      (∀ (e : MapEntry) (x n : Nat) (sl : Slot) (least most : Int), Mem.get none v.tne.ctrlMap q = some e →
        Mem.get none v.tne.sources e.source.key = some x → nthOfKind e.kind e.occ 0 (after q) = some n → (after q)[n]? = some sl →
        e.kind.params[e.param]? = some (.continuous, least, most) →
        let value := max least (min most (e.min + (e.max - e.min) * x / 1023))
        ∃ y : Slot, after (q + 1) = (after q).set n y ∧
          y = { sl with run := sl.run.set e.param value, voice := y.voice, mixStored := y.mixStored } ∧
          Ramped (regionPages v.lma sl.voice.region).length 0 sl y e.param value)) ∧
    (missing = true ↔ ∃ sl ∈ after 8, NamesAbsent v.tne sl) ∧
    t.rcu = { (told ((if edits then 32 else 0) ||| (if missing then 16 else 0)) v).rcu with swapped := true }
  (∀ (bid : BufId) (i : Nat) (s : State) (sl : Slot), slotAt s bid i = some sl →
     (¬offered sl → offerSlot bid i s = s) ∧
     (offered sl → s.tne.tails.length < 4 → admitted bid i sl s (offerSlot bid i s)) ∧
     (∀ (oldest : Tail) (rest : List Tail), offered sl → s.tne.tails = oldest :: rest → rest.length = 3 →
       (∀ x ∈ rest, x.index ≠ oldest.index) →
       ((∃ k : Nat, k < 4 ∧ Mem.get none s.tne.remnants k = none) → ∃ u : State, admitted bid i sl u (offerSlot bid i s) ∧ u.tne.tails = rest ∧
         exec .markedTailCut { s with tne := { s.tne with tails := { oldest with marked := true } :: rest } } = .next u) ∧
       ((∀ k : Nat, k < 4 → Mem.get none s.tne.remnants k ≠ none) → offerSlot bid i s = told 4 s))) ∧
  ∀ (s : State) (r : Recall), s.aup.clock = .running → s.tne.blockPos = 0 → s.rcu.flight = some r →
    s.rcu.state = .fading → s.rcu.swapped = false → s.tne.release = false → (buf s s.rcu.build).state = .ready →
    let new := s.rcu.build
    let old := otherBuf new
    let v := modBuf old (fun b => { b with state := .outgoing }) s
    ((buf s old).state = .active → s.rcu.dip = false → ∃ (w : Nat → State) (t : State), exec .swap s = .next t ∧
      w 0 = v ∧ (∀ i : Nat, i < 12 → w (i + 1) = offerSlot old i (w i)) ∧ news new (buf s old).chain.edited (w 12) t ∧
      t.tne = { (w 12).tne with bufA := t.tne.bufA, bufB := t.tne.bufB } ∧ t = { w 12 with tne := t.tne, rcu := t.rcu } ∧
      buf t old = { buf (w 12) old with chain := { (buf (w 12) old).chain with fade := (buf t old).chain.fade } }) ∧
    ((buf s old).state = .active → s.rcu.dip = true → (buf s old).chain.fade.v = 0 → (buf s old).chain.fade.count = 0 →
      ∃ (w : Nat → State) (tails : Nat → Nat) (t : State), exec .midpoint s = .next t ∧
      w 0 = v ∧ tails 0 = 0 ∧
      (∀ i : Nat, i < 12 →
        ((∀ sl : Slot, slotAt (w i) old i = some sl → ¬offered sl) → w (i + 1) = w i ∧ tails (i + 1) = tails i) ∧
        (∀ sl : Slot, slotAt (w i) old i = some sl → offered sl →
          let sum := slotsCost (buf s new).chain.slots + tails i + sl.kind.cost
          (sum ≤ 2048 → w (i + 1) = offerSlot old i (w i) ∧
            tails (i + 1) = if slotAt (w (i + 1)) old i = some sl then tails i else tails i + sl.kind.cost) ∧
          (2048 < sum → w (i + 1) = told 4 (w i) ∧ tails (i + 1) = tails i))) ∧
      news new (buf s old).chain.edited (w 12) t ∧ buf t old = {} ∧
      t.tne = { (w 12).tne with bufA := t.tne.bufA, bufB := t.tne.bufB, tails := (w 12).tne.tails.map (fun tl =>
        if tl.source.map (·.1) = some old then { tl with source := none } else tl) } ∧
      t = { w 12 with tne := t.tne, rcu := t.rcu, lma := t.lma } ∧
      t.lma = { (w 12).lma with free := t.lma.free, regions := t.lma.regions } ∧
      (Mem.Wf none (w 12).lma.regions →
        (∀ id : Nat, Mem.get none t.lma.regions id = (match Mem.get none (w 12).lma.regions id with
          | none => none
          | some x => if x.owner.ofBuffer old then none else some x)) ∧
        ∀ p : Nat, p ∈ t.lma.free ↔ p ∈ (w 12).lma.free ∨
          ∃ id x, Mem.get none (w 12).lma.regions id = some x ∧ x.owner.ofBuffer old = true ∧ p ∈ x.pages)) ∧
    ((buf s old).state = .empty → s.rcu.dip = false → ∃ t : State, exec .swap s = .next t ∧ news new false s t ∧
      t.tne = { s.tne with bufA := t.tne.bufA, bufB := t.tne.bufB } ∧ t = { s with tne := t.tne, rcu := t.rcu } ∧ buf t old = buf s old)

/-! ## Preset Store and settings -/

/-- Every store request is answered NOT_READY while the store is SCANNING and BUSY with four waiting, and joins the queue otherwise; a
SET_LOCK with the LOCK key asserted is LOCK_HELD; the key's line changes nothing else. SAVE_RECORD gathers its image frame by frame and
joins the queue with LAST; a frame of another number, or one that overfills, is BAD_FIELD and drops the staging (R159, R161, R198). -/
def Obligations.StoreRequestsQueue : Prop :=
  (∀ (on : Bool) (s : State), exec (.lockKeyLineChange on) s = .next { s with pst := { s.pst with lockKey := on } }) ∧
  ∀ (f : Frame) (s : State), Room f.link s → MayEdit f.link s →
    let d := destOf f s
    let u := arrived f s
    let arrives := fun (c : Instr) (op : StoreOp) (v : State) =>
      (s.pst.scanning = true → exec c s = .next (answerCode (some d) .notReady v)) ∧
      (s.pst.scanning = false → 4 ≤ s.pst.queue.length → exec c s = .next (answerCode (some d) .busy v)) ∧
      (s.pst.scanning = false → s.pst.queue.length < 4 →
        exec c s = .next { v with pst := { s.pst with queue := s.pst.queue ++ [⟨op, some d, false⟩] } })
    (∀ (n named : Byte) (name : List Byte), name.length = 16 → f.payload = n :: named :: name →
      arrives (.save f) (.save n.toNat named (name.takeWhile (· ≠ 0))) u) ∧
    (∀ n : Byte, f.payload = [n] → arrives (.delete f) (.delete n.toNat) u) ∧
    (f.payload = [] → arrives (.saveSettings f) .saveSettings u) ∧
    (∀ p z c l : Byte, f.payload = [p, z, c, l] →
      (s.pst.lockKey = false → arrives (.setLock f) (.setLock p z c l) u) ∧
      (s.pst.lockKey = true → s.pst.scanning = false → exec (.setLock f) s = .next (answerCode (some d) .lockHeld u)) ∧
      (s.pst.lockKey = true → s.pst.scanning = true → exec (.setLock f) s = .next (answerCode (some d) .notReady u))) ∧
    (∀ (n flags : Byte) (image : List Byte), f.payload = 0 :: n :: flags :: image → image.length ≤ 240 → flags.toNat ≤ 3 →
      let staged := fun (v : Option (Nat × List Byte)) => (setStage f.link v u : State)
      let held := if flags.getLsbD 0 then some [] else
        match stageOf s f.link with | some (m, b) => if m = n.toNat then some b else none | none => none
      (held = none → exec (.saveRecord f) s = .next (answerCode (some d) .badField (staged none))) ∧
      (∀ b : List Byte, held = some b →
        (1008 < b.length + image.length → exec (.saveRecord f) s = .next (answerCode (some d) .badField (staged none))) ∧
        (b.length + image.length ≤ 1008 → flags.getLsbD 1 = false → exec (.saveRecord f) s =
          .next (answer (some d) .ok 0 (.staged (b.length + image.length)) (staged (some (n.toNat, b ++ image))))) ∧
        (b.length + image.length ≤ 1008 → flags.getLsbD 1 = true →
          arrives (.saveRecord f) (.saveRecord n.toNat (b ++ image)) (staged none))))

/-- The steps of the store. REQUEST_BEGIN of a DELETE programs the record's marker, and refuses an absent or locked preset; one of a SAVE, a
SAVE_RECORD or a SAVE_SETTINGS places its first record in the OPEN sector where it fits and programs its header, a SAVE taking its image from the
buffer edits reach; one of a SET_LOCK reads GLOBALS where it is present, and with it read, or without it, places a GLOBALS record of its lock
fields and the fields read, or power-on values (R160, R162 to R167). PROGRAM_STEP_COMPLETE takes a write on from header to body, from page to
page, to VALID and to the marker of the record it replaces, and answers it with the last step; a header step that failed makes the sector FULL,
counts and reports STORE_FAULT and answers so (R162, R168). FLASH_READ_COMPLETE answers a link with generation, length and body, gives a recall
its record, whose chain, set up as ChainSetUp says, is READY at once where it needs no pages and no relay change, and places a reclaim copy (R137,
R153, R158, R170). RECLAIM_COPY reads the victim's first live record; at the VALID marker of its copy the directory moves to it, the original's
marker is programmed next, and every buffer with that preset and the original's generation takes the new one, the identity with the buffer it
describes (that this is the OUTGOING one from the swap on is deduced, log 44); RECLAIM_ERASE erases an emptied victim; ERASE_COMPLETE leaves the
sector erased and the reclaim over (R170, R171). That STORE_FAULT names the record's offset, that the failure is counted as the step ends and that
the generation is taken as the header step ends is deduced (log 30), and so is that a GLOBALS body opens with the four lock bytes (log 6) and that
an image of SAVE_RECORD in which no value is clamped is written byte for byte as it was sent (log 34); that STORE_FAULT is posted before the reply
is the model's choice (log 61), and so is what the bytes of an image that carry no meaning may hold (logs 80, 81). -/
def Obligations.StoreStepsMove : Prop :=
  ∀ s : State, s.pst.scanning = false → s.pst.reads = [] → s.pst.suspended = none →
    let header := fun (key gen len : Nat) => [0xFE] ++ keyBytes key ++ bytes24 gen ++ bytes16 len ++ List.replicate 8 0xFF
    let body := fun e : DirEntry => (List.range (e.len - 16)).map (fun i => Mem.get 0xFF s.pst.flash (4096 * e.sector + e.off + 16 + i))
    let begun := fun (key : Nat) (image : List Byte) (rest : List (Nat × List Byte)) (clamped : Bool) (t : State) =>
      ∀ (j : Nat) (o : Sector), openSector s.pst = some (j, o) → o.next + 16 + image.length ≤ 4096 →
        t.pst = { s.pst with
          job := some (.writing ⟨key, image, j, o.next, s.pst.nextGen, .header⟩ rest clamped)
          op := some (.program (4096 * j + o.next) (header key s.pst.nextGen (16 + image.length))) }
    let room := fun (key new : Nat) => liveBytes s.pst + new ≤ 196608 + ((entry s.pst key).map DirEntry.len).getD 0
    (∀ (n : Nat) (dest : Option Dest), s.pst.queue = [⟨.delete n, dest, false⟩] → s.pst.reclaim = none → 2 < erasedCount s.pst →
      (s.pst.op = none → s.pst.job = none →
        (∀ e : DirEntry, entry s.pst n = some e → s.pst.lock.holds n = false → liveBytes s.pst ≤ 196608 → exec .requestBegin s =
          .next { s with pst := { s.pst with
            job := some (.deleting n e), op := some (.program (4096 * e.sector + e.off) [0xF8]) } }) ∧
        (entry s.pst n = none → exec .requestBegin s =
          .next (answerCode dest .notFound { s with pst := { s.pst with queue := [] } })) ∧
        (∀ e : DirEntry, entry s.pst n = some e → s.pst.lock.holds n = true → exec .requestBegin s =
          .next (answerCode dest .locked { s with pst := { s.pst with queue := [] } }))) ∧
      (∀ e : DirEntry, s.pst.job = some (.deleting n e) → s.pst.op = some (.program (4096 * e.sector + e.off) [0xF8]) →
        2 < erasedCount (kill e s.pst) →
        ∃ t : State, exec (.programStepComplete true) s = .next (answer dest .ok 0 .none t) ∧
          t = { s with pst := t.pst } ∧ t.pst.queue = [] ∧ t.pst.job = none ∧ t.pst.op = none ∧
          entry t.pst n = none ∧ (∀ m : Nat, m ≠ n → entry t.pst m = entry s.pst m) ∧
          sector t.pst e.sector = { sector s.pst e.sector with
            live := (sector s.pst e.sector).live - e.len, dead := (sector s.pst e.sector).dead + e.len } ∧
          (∀ a : Nat, Mem.get 0xFF t.pst.flash a =
            if a = 4096 * e.sector + e.off then Mem.get 0xFF s.pst.flash a &&& 0xF8 else Mem.get 0xFF s.pst.flash a))) ∧
    (∀ (q : StoreReq) (j : Nat) (o : Sector), s.pst.queue = [q] → q.held = false → s.pst.op = none → s.pst.job = none →
      s.pst.reclaim = none → 1 < erasedCount s.pst → openSector s.pst = some (j, o) → s.pst.nextGen + 2 ≤ 16777215 →
      (∀ (n : Nat) (named : Byte) (name : List Byte) (bid : BufId), q.op = .save n named name → named.toNat ≤ 1 → editBuf s = some bid →
        let c := (buf s bid).chain
        let image := presetImage c (if named = 1 then name else c.name)
        s.pst.lock.holds n = false → slotsCost c.slots ≤ 1280 → room n (16 + image.length) → o.next + 16 + image.length ≤ 4096 →
        ∃ t : State, exec .requestBegin s = .next t ∧ begun n image [] false t ∧
          buf t bid = { buf s bid with saving := true, editedSince := false } ∧ buf t (otherBuf bid) = buf s (otherBuf bid) ∧
          t = { s with pst := t.pst, tne := { s.tne with bufA := t.tne.bufA, bufB := t.tne.bufB } }) ∧
      (∀ (n : Nat) (image : List Byte) (c : Chain), q.op = .saveRecord n image → parsePreset true image = some (c, false) →
        s.pst.lock.holds n = false → slotsCost c.slots ≤ 1280 → room n (16 + image.length) → o.next + 16 + image.length ≤ 4096 →
        ∃ t : State, exec .requestBegin s = .next t ∧ begun n image [] false t ∧ t = { s with pst := t.pst, tne := t.tne } ∧ t.tne = s.tne) ∧
      (let g := globalsImage (liveGlobals s)
       let b := bindingsImage s.swc.bindings
       q.op = .saveSettings → s.pst.settingsLock = false → liveBytes s.pst + 32 + g.length + b.length ≤ 196608 →
        o.next + 16 + g.length ≤ 4096 →
        ∃ t : State, exec .requestBegin s = .next t ∧ begun 256 g [(257, b)] false t ∧ t = { s with pst := t.pst }) ∧
      (∀ p z c l : Byte, q.op = .setLock p z c l → p.toNat ≤ 1 → z.toNat ≤ 6 → c.toNat ≤ 1 → l.toNat ≤ 1 → s.pst.lockKey = false →
        room 256 204 →
        (∀ e : DirEntry, entry s.pst 256 = some e → exec .requestBegin s =
          .next { s with pst := { s.pst with op := some (.read .job e), job := some .readGlobals } }) ∧
        (entry s.pst 256 = none → o.next + 204 ≤ 4096 → exec .requestBegin s = .next { s with pst := { s.pst with
          job := some (.writing ⟨256, [p, z, c, l] ++ (globalsImage {}).drop 4, j, o.next, s.pst.nextGen, .header⟩ [] false)
          op := some (.program (4096 * j + o.next) (header 256 s.pst.nextGen 204)) } }))) ∧
    (∀ (p z c l : Byte) (dest : Option Dest) (e : DirEntry) (j : Nat) (o : Sector), s.pst.queue = [⟨.setLock p z c l, dest, false⟩] →
      s.pst.op = some (.read .job e) → s.pst.job = some .readGlobals → e.len = 204 → openSector s.pst = some (j, o) → o.next + 204 ≤ 4096 →
      exec .flashReadComplete s = .next { s with pst := { s.pst with
        job := some (.writing ⟨256, [p, z, c, l] ++ (body e).drop 4, j, o.next, s.pst.nextGen, .header⟩ [] false)
        op := some (.program (4096 * j + o.next) (header 256 s.pst.nextGen 204)) } }) ∧
    (∀ (w : Writer) (n : Nat) (image : List Byte) (dest : Option Dest), s.pst.job = some (.writing w [] false) →
      s.pst.queue = [⟨.saveRecord n image, dest, false⟩] → s.pst.reclaim = none → 3 < erasedCount s.pst → w.key < 256 →
      let base := 4096 * w.sector + w.off
      let written := fun (t : State) (at_ : Nat) (data : List Byte) => ∀ a : Nat, Mem.get 0xFF t.pst.flash a =
        if at_ ≤ a ∧ a < at_ + data.length then Mem.get 0xFF s.pst.flash a &&& data.getD (a - at_) 0xFF else Mem.get 0xFF s.pst.flash a
      let goes := fun (step : WriteStep) (at_ : Nat) (data : List Byte) (t : State) => exec (.programStepComplete true) s = .next t ∧
        t.pst.job = some (.writing { w with step := step } [] false) ∧ t.pst.op = some (.program at_ data) ∧
        t.pst.queue = s.pst.queue ∧ t = { s with pst := t.pst }
      let now := ⟨w.sector, w.off, w.gen, 16 + w.body.length⟩
      let dirIs := fun (t : State) (v : Option DirEntry) => entry t.pst w.key = v ∧ ∀ m : Nat, m ≠ w.key → entry t.pst m = entry s.pst m
      (s.pst.op = some (.program base (header w.key w.gen (16 + w.body.length))) → w.step = .header →
        (w.body ≠ [] → ∃ t : State, goes (.body 0) (base + 16) (w.body.take 256) t ∧ t.pst.nextGen = s.pst.nextGen + 1 ∧
          t.pst.dir = s.pst.dir ∧ written t base (header w.key w.gen (16 + w.body.length)) ∧
          sector t.pst w.sector = { sector s.pst w.sector with next := (sector s.pst w.sector).next + (16 + w.body.length) }) ∧
        ∃ t : State, exec (.programStepComplete false) s = .next (answer dest .storeFault 0 .none t) ∧
          t.lkc = (post (.storeFault w.sector w.off .header) (countEvent 21 s)).lkc ∧ t.pst.queue = [] ∧ t.pst.job = none ∧
          t.pst.op = none ∧ t.pst.dir = s.pst.dir ∧ (sector t.pst w.sector).state = .full ∧ (sector t.pst w.sector).next = 4096 ∧
          t.rcu = s.rcu ∧ t.swc = s.swc) ∧
      (∀ k : Nat, w.step = .body k → s.pst.op = some (.program (base + 16 + k) ((w.body.drop k).take 256)) →
        ∃ t : State, written t (base + 16 + k) ((w.body.drop k).take 256) ∧ t.pst.dir = s.pst.dir ∧ t.pst.nextGen = s.pst.nextGen ∧
          (k + 256 < w.body.length → goes (.body (k + 256)) (base + 16 + (k + 256)) ((w.body.drop (k + 256)).take 256) t) ∧
          (w.body.length ≤ k + 256 → goes .valid base [0xFC] t)) ∧
      (w.step = .valid → s.pst.op = some (.program base [0xFC]) →
        (∀ old : DirEntry, entry s.pst w.key = some old → ∃ t : State,
          goes (.supersede old) (4096 * old.sector + old.off) [0xF8] t ∧ dirIs t (some now) ∧ written t base [0xFC]) ∧
        (entry s.pst w.key = none → ∃ t : State, exec (.programStepComplete true) s = .next (answer dest .ok 0 (.written w.gen) t) ∧
          t = { s with pst := t.pst } ∧ t.pst.queue = [] ∧ t.pst.job = none ∧ t.pst.op = none ∧ dirIs t (some now) ∧
          (sector t.pst w.sector).live = (sector s.pst w.sector).live + (16 + w.body.length))) ∧
      (∀ old : DirEntry, w.step = .supersede old → s.pst.op = some (.program (4096 * old.sector + old.off) [0xF8]) →
        ∃ t : State, exec (.programStepComplete true) s = .next (answer dest .ok 0 (.written w.gen) t) ∧
          t = { s with pst := t.pst } ∧ t.pst.queue = [] ∧ t.pst.job = none ∧ t.pst.op = none ∧ t.pst.dir = s.pst.dir ∧
          sector t.pst old.sector = { sector s.pst old.sector with
            live := (sector s.pst old.sector).live - old.len, dead := (sector s.pst old.sector).dead + old.len })) ∧
    (∀ (dest : Dest) (e : DirEntry), s.pst.op = some (.read (.link dest) e) → s.pst.job = none → s.pst.reclaim = none →
      exec .flashReadComplete s =
        .next (answer (some dest) .ok 0 (.bytes (bytes24 e.gen ++ bytes16 e.len ++ body e)) { s with pst := { s.pst with op := none } })) ∧
    (∀ (n : Nat) (e : DirEntry) (r : Recall) (c : Chain) (clamped : Bool), s.pst.op = some (.read (.recall n) e) → s.pst.job = none →
      s.pst.reclaim = none → s.rcu.state = .fetching → s.rcu.readNo = n → s.rcu.flight = some r → r.joined = none →
      r.quant = some false → parsePreset false (body e) = some (c, clamped) →
      let bid := if s.tne.bufA.state = .empty then BufId.a else .b
      let chain := setupChain s.tne s.lma s.tmp.beat r.scene { c with preset := r.preset, gen := e.gen }
      (∀ sl ∈ chain.slots, sl.kind ≠ .mod ∧ sl.kind ≠ .delay ∧ sl.kind ≠ .reverb) → chain.relays = none →
      (chain.scenes.getD chain.scene {}).relays = none →
      ∃ t : State, exec .flashReadComplete s = .next t ∧ buf t bid = { state := .ready, chain := chain } ∧
        buf t (otherBuf bid) = buf s (otherBuf bid) ∧ t.rcu = { s.rcu with build := bid, state := .loading, fadeDue := true } ∧
        t.pst = { s.pst with op := none } ∧ t.lma = { s.lma with requests := none } ∧ t.acd = s.acd ∧ t.lkc = s.lkc ∧ t.swc = s.swc) ∧
    (∀ (k key j : Nat) (e : DirEntry) (o : Sector), s.pst.op = some (.read .copy e) → s.pst.job = none → 16 ≤ e.len →
      s.pst.reclaim = some ⟨k, some ⟨key, e, none⟩⟩ → openSector s.pst = some (j, o) → o.next + e.len ≤ 4096 →
      exec .flashReadComplete s = .next { s with pst := { s.pst with
        reclaim := some ⟨k, some ⟨key, e, some ⟨key, body e, j, o.next, s.pst.nextGen, .header⟩⟩⟩
        op := some (.program (4096 * j + o.next) (header key s.pst.nextGen e.len)) } }) ∧
    (∀ (k key : Nat) (e old : DirEntry) (w : Writer), s.pst.job = none → s.pst.reclaim = some ⟨k, some ⟨key, e, some w⟩⟩ → w.step = .valid →
      s.pst.op = some (.program (4096 * w.sector + w.off) [0xFC]) → entry s.pst w.key = some old →
      let takes := fun bid : BufId => w.key < 256 ∧ (buf s bid).state ≠ .empty ∧ (buf s bid).chain.preset = w.key ∧ (buf s bid).chain.gen = e.gen
      let described := if s.rcu.state = .fading ∧ s.rcu.swapped = true then outgoingBuf s else activeBuf s
      ∃ t : State, exec (.programStepComplete true) s = .next t ∧
        entry t.pst w.key = some ⟨w.sector, w.off, w.gen, 16 + w.body.length⟩ ∧ (∀ m : Nat, m ≠ w.key → entry t.pst m = entry s.pst m) ∧
        t.pst.reclaim = some ⟨k, some ⟨key, e, some { w with step := .supersede old }⟩⟩ ∧
        t.pst.op = some (.program (4096 * old.sector + old.off) [0xF8]) ∧ t.pst.queue = s.pst.queue ∧
        (∀ a : Nat, Mem.get 0xFF t.pst.flash a =
          if a = 4096 * w.sector + w.off then Mem.get 0xFF s.pst.flash a &&& 0xFC else Mem.get 0xFF s.pst.flash a) ∧
        (sector t.pst w.sector).live = (sector s.pst w.sector).live + (16 + w.body.length) ∧
        (∀ bid : BufId, (takes bid → buf t bid = { buf s bid with chain := { (buf s bid).chain with gen := w.gen } }) ∧
          (¬takes bid → buf t bid = buf s bid)) ∧
        ((∃ bid : BufId, described = some bid ∧ takes bid) → t.rcu = { s.rcu with ident := { s.rcu.ident with gen := w.gen } }) ∧
        ((∀ bid : BufId, described = some bid → ¬takes bid) → t.rcu = s.rcu) ∧
        t = { s with pst := t.pst, rcu := t.rcu, tne := { s.tne with bufA := t.tne.bufA, bufB := t.tne.bufB } }) ∧
    (∀ k : Nat, s.pst.op = some (.erase k) → s.pst.job = none → s.pst.queue = [] → s.pst.reclaim = some ⟨k, none⟩ →
      (sector s.pst k).state = .reclaim → 1 < erasedCount s.pst →
      ∃ t : State, exec .eraseComplete s = .next t ∧ t = { s with pst := t.pst } ∧ sector t.pst k = {} ∧ t.pst.reclaim = none ∧
        t.pst.op = none ∧ t.pst.dir = s.pst.dir ∧
        (∀ a : Nat, Mem.get 0xFF t.pst.flash a = if a / 4096 = k then 0xFF else Mem.get 0xFF s.pst.flash a)) ∧
    (∀ k : Nat, s.pst.op = none → s.pst.job = none → s.pst.queue = [] → s.pst.reclaim = some ⟨k, none⟩ →
      (liveOf s.pst k = [] → exec .reclaimErase s = .next { s with pst := { s.pst with op := some (.erase k) } } ∧
        exec .reclaimCopy s = .next s) ∧
      (∀ (key : Nat) (e : DirEntry), liveOf s.pst k = [(key, e)] → s.pst.nextGen < 16777215 → 0 < erasedCount s.pst →
        exec .reclaimCopy s = .next { s with pst := { s.pst with
          op := some (.read .copy e), reclaim := some ⟨k, some ⟨key, e, none⟩⟩ } } ∧
        exec .reclaimErase s = .next s))

/-- The checks made as a request begins. In the order of R160 the first that fails refuses the request with its code, and it leaves the queue with
nothing else changed: a SAVE with no buffer that edits reach is NOT_READY and a DELETE of an absent preset NOT_FOUND; a protected preset is
LOCKED, SAVE_SETTINGS under the settings lock is LOCKED, and SET_LOCK with the LOCK key asserted is LOCK_HELD; a field or an image that is not
well formed is BAD_FIELD; a chain of more than 1280 units is OVER_BUDGET; live bytes above 196,608 after the request, and generations that do not
reach for its records, are STORE_FULL (R60, R160, R161, R164, R167). That SAVE_SETTINGS needs a generation for each of its two records is deduced
(log 29), and so is that the space check of a DELETE counts its record as gone (log 11); what the bytes of an image that carry no meaning may
hold, and that a clamped image is formed anew, is the model's choice (logs 34, 80, 81). -/
def Obligations.StoreBeginRefuses : Prop :=
  ∀ (s : State) (op : StoreOp) (dest : Option Dest) (more : List StoreReq), s.pst.scanning = false → s.pst.reads = [] →
    s.pst.suspended = none → s.pst.op = none → s.pst.job = none → s.pst.reclaim = none → 2 < erasedCount s.pst →
    s.pst.queue = ⟨op, dest, false⟩ :: more → (∀ q ∈ more, q.held = false) →
    let refused := fun code : Code => exec .requestBegin s = .next (answerCode dest code { s with pst := { s.pst with queue := more } })
    let crowded := fun (keys : List Nat) (new : Nat) =>
      196608 + (keys.map (fun k => ((entry s.pst k).map DirEntry.len).getD 0)).sum < liveBytes s.pst + new
    let full := fun (keys : List Nat) (new : Nat) =>
      (crowded keys new → refused .storeFull) ∧ (16777215 < s.pst.nextGen + keys.length → refused .storeFull)
    (∀ (n : Nat) (named : Byte) (name : List Byte), op = .save n named name →
      (editBuf s = none → refused .notReady) ∧
      (∀ bid : BufId, editBuf s = some bid →
        let c := (buf s bid).chain
        (s.pst.lock.holds n = true → refused .locked) ∧
        (s.pst.lock.holds n = false → 1 < named.toNat → refused .badField) ∧
        (s.pst.lock.holds n = false → named.toNat ≤ 1 →
          (1280 < slotsCost c.slots → refused .overBudget) ∧
          (slotsCost c.slots ≤ 1280 → full [n] (16 + (presetImage c (if named = 1 then name else c.name)).length))))) ∧
    (∀ (n : Nat) (image : List Byte), op = .saveRecord n image →
      (s.pst.lock.holds n = true → refused .locked) ∧
      (s.pst.lock.holds n = false →
        (parsePreset true image = none → refused .badField) ∧
        (∀ (c : Chain) (clamped : Bool), parsePreset true image = some (c, clamped) →
          (1280 < slotsCost c.slots → refused .overBudget) ∧
          (slotsCost c.slots ≤ 1280 → full [n] (16 + (if clamped then presetImage c c.name else image).length))))) ∧
    (∀ n : Nat, op = .delete n →
      (entry s.pst n = none → refused .notFound) ∧
      (∀ e : DirEntry, entry s.pst n = some e →
        (s.pst.lock.holds n = true → refused .locked) ∧
        (s.pst.lock.holds n = false → crowded [n] 0 → refused .storeFull))) ∧
    (op = .saveSettings →
      (s.pst.settingsLock = true → refused .locked) ∧
      (s.pst.settingsLock = false → full [256, 257] (32 + (globalsImage (liveGlobals s)).length + (bindingsImage s.swc.bindings).length))) ∧
    (∀ p z c l : Byte, op = .setLock p z c l →
      (s.pst.lockKey = true → refused .lockHeld) ∧
      (s.pst.lockKey = false →
        (1 < p.toNat ∨ 6 < z.toNat ∨ 1 < c.toNat ∨ 1 < l.toNat → refused .badField) ∧
        (p.toNat ≤ 1 → z.toNat ≤ 6 → c.toNat ≤ 1 → l.toNat ≤ 1 → full [256] 204)))

/-- The ends of a record write. A SAVE that completes is answered with its number and generation; the buffer its image came from takes both, and its
edited flag is whether an edit reached it since the begin; the identity takes them while the unit is not FADING (R54, R132, R163). SAVE_SETTINGS goes
on from GLOBALS to BINDINGS (R166), and a GLOBALS record puts its lock in force at its VALID marker (R161, R162). A body or VALID step that failed
makes the record dead and its sector FULL, is counted and reported, and leaves directory and lock as they stand; after VALID one more step programs
the marker to SUPERSEDED, and the request is answered STORE_FAULT with nothing changed in its buffer. A SUPERSEDED step that failed in a save counts
the old record dead and the request completes OK; in a DELETE the entry stays and the answer is STORE_FAULT (R54, R168). What STORE_FAULT carries and
when the failure is counted is deduced (log 30), as are the lock bytes of a GLOBALS body (log 6); which bits a failed step moved is free (log 3).
That STORE_FAULT is posted before the reply is the model's choice (log 61). -/
def Obligations.StoreWritesComplete : Prop :=
  ∀ (s : State) (w : Writer) (op : StoreOp) (dest : Option Dest), s.pst.scanning = false → s.pst.reads = [] → s.pst.suspended = none →
    s.pst.reclaim = none → 3 < erasedCount s.pst → s.pst.queue = [⟨op, dest, false⟩] →
    let base := 4096 * w.sector + w.off
    let addr := fun e : DirEntry => 4096 * e.sector + e.off
    let programs := fun (a : Nat) (v : Byte) => s.pst.op = some (.program a [v])
    let idle := fun t : State => t.pst.queue = [] ∧ t.pst.job = none ∧ t.pst.op = none
    let located := fun t : State => t.pst.dir = s.pst.dir ∧ t.pst.lock = s.pst.lock ∧ t.pst.settingsLock = s.pst.settingsLock
    let fault := fun (sec off : Nat) (step : WriteStep) => (post (.storeFault sec off step) (countEvent 21 s)).lkc
    let closed := fun t : State => (sector t.pst w.sector = { sector s.pst w.sector with
        state := .full, next := 4096
        dead := (sector s.pst w.sector).dead + (16 + w.body.length) + (4096 - (sector s.pst w.sector).next) }) ∧
      ∀ k : Nat, k ≠ w.sector → sector t.pst k = sector s.pst k
    let unsaved := fun t : State => (∀ bid : BufId, buf t bid = { buf s bid with saving := false }) ∧
      t = { s with pst := t.pst, lkc := t.lkc, free := t.free, tne := { s.tne with bufA := t.tne.bufA, bufB := t.tne.bufB } }
    let data := match op with
      | .save n _ _ => ReplyData.saved n w.gen
      | .saveRecord _ _ => .written w.gen
      | _ => .none
    let lastStep := w.step = .valid ∧ entry s.pst w.key = none ∧ programs base 0xFC ∨
      ∃ old : DirEntry, w.step = .supersede old ∧ programs (addr old) 0xF8
    (lastStep → s.pst.job = some (.writing w [] false) →
      ∃ t : State, exec (.programStepComplete true) s = .next (answer dest .ok 0 data t) ∧ idle t ∧
        ((∀ (n : Nat) (named : Byte) (name : List Byte), op ≠ .save n named name) → t = { s with pst := t.pst }) ∧
        (∀ (n : Nat) (named : Byte) (name : List Byte), op = .save n named name →
          t = { s with pst := t.pst, rcu := t.rcu, tne := { s.tne with bufA := t.tne.bufA, bufB := t.tne.bufB } } ∧
          (∀ bid : BufId, buf t bid = if (buf s bid).saving then { buf s bid with saving := false, chain := { (buf s bid).chain with
            preset := n, gen := w.gen, edited := (buf s bid).editedSince } } else buf s bid) ∧
          let edited := match activeBuf s with | some bid => (buf t bid).chain.edited | none => false
          t.rcu = if ((buf s .a).saving ∨ (buf s .b).saving) ∧ s.rcu.state ≠ .fading then
            { s.rcu with ident := { s.rcu.ident with preset := some n, gen := w.gen, edited := edited } } else s.rcu)) ∧
    (∀ (b : List Byte) (j : Nat) (o : Sector), lastStep → s.pst.job = some (.writing w [(257, b)] false) → SectorsOk s.pst →
      openSector s.pst = some (j, o) → o.next + 16 + b.length ≤ 4096 →
      ∃ t : State, exec (.programStepComplete true) s = .next t ∧ t = { s with pst := t.pst } ∧ t.pst.queue = s.pst.queue ∧
        t.pst.job = some (.writing ⟨257, b, j, o.next, s.pst.nextGen, .header⟩ [] false) ∧
        t.pst.op = some (.program (4096 * j + o.next)
          ([0xFE] ++ keyBytes 257 ++ bytes24 s.pst.nextGen ++ bytes16 (16 + b.length) ++ List.replicate 8 0xFF))) ∧
    (∀ (p z c l : Byte) (image : List Byte) (rest : List (Nat × List Byte)) (t : State), w.key = 256 → w.body = p :: z :: c :: l :: image →
      p.toNat ≤ 1 → z.toNat ≤ 6 → c.toNat ≤ 1 → l.toNat ≤ 1 → w.step = .valid → programs base 0xFC →
      s.pst.job = some (.writing w rest false) → exec (.programStepComplete true) s = .next t →
      t.pst.lock = ⟨decide (p = 1), z.toNat, decide (c = 1)⟩ ∧ t.pst.settingsLock = decide (l = 1) ∧
      entry t.pst 256 = some ⟨w.sector, w.off, w.gen, 16 + w.body.length⟩) ∧
    (∀ rest : List (Nat × List Byte), s.pst.job = some (.writing w rest false) →
      (∀ k : Nat, w.step = .body k → s.pst.op = some (.program (base + 16 + k) ((w.body.drop k).take 256)) →
        ∃ t : State, exec (.programStepComplete false) s = .next (answer dest .storeFault 0 .none t) ∧ idle t ∧ located t ∧ closed t ∧
          unsaved t ∧ t.lkc = fault w.sector w.off (.body k)) ∧
      (w.step = .valid → programs base 0xFC → ∃ t : State, exec (.programStepComplete false) s = .next t ∧
        t = { s with pst := t.pst, lkc := fault w.sector w.off .valid, free := t.free } ∧ t.pst.queue = s.pst.queue ∧
        t.pst.job = some (.writing { w with step := .kill } rest false) ∧ t.pst.op = some (.program base [0xF8]) ∧ located t ∧ closed t) ∧
      (∀ matched : Bool, w.step = .kill → programs base 0xF8 →
        ∃ t : State, exec (.programStepComplete matched) s = .next (answer dest .storeFault 0 .none t) ∧ idle t ∧ located t ∧ unsaved t ∧
          t.pst.sectors = s.pst.sectors ∧ t.lkc = if matched then s.lkc else fault w.sector w.off .kill)) ∧
    (∀ old : DirEntry, w.step = .supersede old → programs (addr old) 0xF8 → s.pst.job = some (.writing w [] false) →
      ∃ t : State, exec (.programStepComplete false) s = .next (answer dest .ok 0 data t) ∧ idle t ∧ located t ∧
        (sector t.pst old.sector = { sector s.pst old.sector with
          live := (sector s.pst old.sector).live - old.len, dead := (sector s.pst old.sector).dead + old.len }) ∧
        t.lkc = fault old.sector old.off (.supersede old)) ∧
    (∀ (n : Nat) (e : DirEntry), op = .delete n → s.pst.job = some (.deleting n e) → programs (addr e) 0xF8 →
      ∃ t : State, exec (.programStepComplete false) s = .next (answer dest .storeFault 0 .none t) ∧ idle t ∧ located t ∧
        t.pst.sectors = s.pst.sectors ∧ t = { s with pst := t.pst, lkc := fault e.sector e.off (.supersede e), free := t.free })

/-- Where a request's record goes, and reclaim's start. A record that does not fit in the OPEN sector goes to offset 0 of the lowest ERASED
sector, which becomes OPEN as the other becomes FULL with its end dead, where two are ERASED. With fewer the request is held back and reclaim
starts, on the FULL sector that can be emptied with the most dead bytes, the lowest of equals, where generations are left for its live records;
where it does not start, the answer is STORE_FULL. Reclaim starts as well as a request leaves the queue with two or fewer ERASED sectors, and an
erase that is over has the request held back reconsidered (R162, R169, R171). That an image of SAVE_RECORD in which no value is clamped is written
byte for byte as it was sent is deduced (log 34); that reclaim starts on a victim with no live record when the generations are exhausted is the
model's choice (log 87). -/
def Obligations.StoreRequestsPlace : Prop :=
  ∀ s : State, s.pst.scanning = false → s.pst.reads = [] → s.pst.suspended = none → s.pst.job = none → SectorsOk s.pst →
    let canEmpty := fun k : Nat => (sector s.pst k).state = .full ∧ 0 < (sector s.pst k).dead ∧
      ((sector s.pst k).live = 0 ∨ 0 < erasedCount s.pst ∨
        ∃ (j : Nat) (o : Sector), openSector s.pst = some (j, o) ∧ (sector s.pst k).live + o.next ≤ 4096)
    let victim := fun v : Nat => canEmpty v ∧ s.pst.nextGen + (liveOf s.pst v).length ≤ 16777215 ∧
      ∀ k : Nat, canEmpty k → (sector s.pst k).dead < (sector s.pst v).dead ∨ (sector s.pst k).dead = (sector s.pst v).dead ∧ v ≤ k
    let starts := fun (v : Nat) (t : State) => t.pst.reclaim = some ⟨v, none⟩ ∧
      (∀ k : Nat, sector t.pst k = if k = v then { sector s.pst v with state := .reclaim } else sector s.pst k) ∧
      t = { s with pst := t.pst, lkc := t.lkc } ∧
      t.pst = { s.pst with queue := t.pst.queue, reclaim := t.pst.reclaim, sectors := t.pst.sectors }
    (s.pst.op = none → s.pst.reclaim = none →
      (∀ (n : Nat) (image : List Byte) (c : Chain) (dest : Option Dest) (more : List StoreReq),
        s.pst.queue = ⟨.saveRecord n image, dest, false⟩ :: more → parsePreset true image = some (c, false) → s.pst.lock.holds n = false →
        slotsCost c.slots ≤ 1280 → liveBytes s.pst + (16 + image.length) ≤ 196608 + ((entry s.pst n).map DirEntry.len).getD 0 →
        s.pst.nextGen < 16777215 → (∀ (j : Nat) (o : Sector), openSector s.pst = some (j, o) → 4096 < o.next + (16 + image.length)) →
        (2 ≤ erasedCount s.pst → ∃ (k : Nat) (t : State), exec .requestBegin s = .next t ∧
          (sector s.pst k).state = .erased ∧ (∀ i : Nat, i < k → (sector s.pst i).state ≠ .erased) ∧
          t = { s with pst := { s.pst with
            sectors := t.pst.sectors, job := some (.writing ⟨n, image, k, 0, s.pst.nextGen, .header⟩ [] false)
            op := some (.program (4096 * k)
              ([0xFE] ++ keyBytes n ++ bytes24 s.pst.nextGen ++ bytes16 (16 + image.length) ++ List.replicate 8 0xFF)) } } ∧
          sector t.pst k = { sector s.pst k with state := .opened } ∧
          (∀ (j : Nat) (o : Sector), openSector s.pst = some (j, o) →
            sector t.pst j = { o with state := .full, dead := o.dead + (4096 - o.next), next := 4096 }) ∧
          (∀ i : Nat, i ≠ k → (∀ (j : Nat) (o : Sector), openSector s.pst = some (j, o) → i ≠ j) → sector t.pst i = sector s.pst i)) ∧
        (erasedCount s.pst < 2 →
          (∀ v : Nat, victim v → ∃ t : State, exec .requestBegin s = .next t ∧ starts v t ∧ t.lkc = s.lkc ∧
            t.pst.queue = ⟨.saveRecord n image, dest, true⟩ :: more) ∧
          ((∀ v : Nat, ¬victim v) →
            exec .requestBegin s = .next (answerCode dest .storeFull { s with pst := { s.pst with queue := more } })))) ∧
      (∀ (n : Nat) (dest : Option Dest), s.pst.queue = [⟨.delete n, dest, false⟩] → entry s.pst n = none → erasedCount s.pst ≤ 2 →
        (∀ v : Nat, victim v → ∃ t : State, exec .requestBegin s = .next t ∧ starts v t ∧ t.pst.queue = [] ∧
          t.lkc = (answerCode dest .notFound s).lkc) ∧
        ((∀ v : Nat, ¬victim v) →
          exec .requestBegin s = .next (answerCode dest .notFound { s with pst := { s.pst with queue := [] } })))) ∧
    (∀ (k : Nat) (q : StoreReq), s.pst.op = some (.erase k) → s.pst.reclaim = some ⟨k, none⟩ → s.pst.queue = [q] → q.held = true →
      (sector s.pst k).state = .reclaim → 0 < erasedCount s.pst →
      ∃ t : State, exec .eraseComplete s = .next t ∧ t = { s with pst := t.pst } ∧ t.pst.queue = [{ q with held := false }] ∧
        t.pst.reclaim = none ∧ t.pst.op = none ∧ sector t.pst k = {} ∧ (∀ i : Nat, i ≠ k → sector t.pst i = sector s.pst i))

/-- The scan. Of a blank flash: an empty directory, sector 0 OPEN and the others ERASED, generation 1, no lock; SCANNING ends and leaves the
bypass condition set; the boot recall is the empty chain in buffer A, whose fade starts at the next block boundary. Of one VALID record: the
directory holds it, its sector is OPEN after it, the next generation follows its own; a GLOBALS record's fields are given to the blocks and its
lock is in force, a BINDINGS record's table replaces the bindings, and a PRESET record of preset 0 is read for the boot recall. Of two VALID
records of one preset the higher generation stays and the other's marker is programmed to SUPERSEDED and its bytes are dead. SCAN_DONE carries the
counts of what was found, posted as SCANNING ends (R149, R173, R174, R175). That a duplicate is not among its dead records (log 79), that a tune
mode that is ON stays ON (log 54), that settings edited during the scan stay where their record is absent (log 60), and that a stored binding
record with a field outside its values is mended as a whole (log 72), is the model's choice, and so is how parseGlobals and parseBindings read a
body of another length (log 78), a MIDI channel or loopback source past its values (log 76) and a map entry's parameter (log 77); the places of
the fields in a GLOBALS body are deduced (log 6). -/
def Obligations.ScanOfBlankFlash : Prop :=
  ∀ s : State, s.pst.scanning = true → s.pst.flash = [] → s.pst.queue = [] → s.pst.reclaim = none → s.rcu.bootDue = true →
    let ended := changeConds (fun c => { c with scanning := false })
    (∃ t : State, exec (.scanComplete []) s = .next t ∧ t.pst.scanning = false ∧ t.pst.dir = [] ∧ t.pst.flash = [] ∧
      sector t.pst 0 = { state := .opened } ∧ (∀ k : Nat, k ≠ 0 → sector t.pst k = {}) ∧ t.pst.nextGen = 1 ∧ t.pst.lock = {} ∧
      t.pst.settingsLock = false ∧ t.acd.conds.scanning = false ∧ t.rcu.bootDue = false ∧ t.rcu.state = .loading ∧ t.rcu.fadeDue = true ∧
      t.rcu.build = .a ∧ t.tne.bufA = { state := .ready, chain := { preset := 0 } } ∧ t.tne.bufB = s.tne.bufB ∧
      t.swc.bindings = s.swc.bindings ∧ t.tun = s.tun ∧ t.tmp = s.tmp ∧
      t.lkc = (post (.scanDone { erased := 63 }) (ended s)).lkc) ∧
    (∀ v : State, v.pst.scanning = false → exec (.scanComplete []) v = .next v) ∧
    (∀ (v : State) (key gen len : Nat), v.pst.scanning = true → v.pst.queue = [] → v.pst.reclaim = none → v.rcu.bootDue = true →
      key ≤ 257 → 1 ≤ gen → gen ≤ 16777214 → 32 ≤ len → len ≤ 1024 → len % 4 = 0 →
      flashBytes v.pst.flash 0 8 = [0xFC] ++ keyBytes key ++ bytes24 gen ++ bytes16 len → (∀ e ∈ v.pst.flash, e.1 < len) →
      let body := (List.range (len - 16)).map (fun i => Mem.get 0xFF v.pst.flash (16 + i))
      let g := (parseGlobals body).1
      ∃ t : State, exec (.scanComplete []) v = .next t ∧ t.pst.scanning = false ∧ t.pst.flash = v.pst.flash ∧
        (v.pst.op = none → v.pst.reads = [] → ∃ w : State, (key ≠ 256 → w.lkc = (ended v).lkc) ∧ t.lkc = (post (.scanDone {
            presets := if key < 256 then 1 else 0, globals := decide (key = 256), bindings := decide (key = 257)
            fieldsMended := if key = 256 then (parseGlobals body).2 else if key = 257 then (parseBindings body).2 else 0
            live := len, erased := 63, nextGen := gen + 1 }) w).lkc) ∧
        (∀ k : Nat, entry t.pst k = if k = key then some ⟨0, 0, gen, len⟩ else none) ∧
        sector t.pst 0 = { state := .opened, live := len, dead := 0, next := len } ∧ (∀ k : Nat, k ≠ 0 → sector t.pst k = {}) ∧
        t.pst.nextGen = gen + 1 ∧ t.acd.conds.scanning = false ∧ t.rcu.bootDue = false ∧
        (key = 0 → v.pst.op = none → v.pst.reads = [] → t.rcu.state = .fetching ∧
          t.pst.op = some (.read (.recall (v.rcu.readNo + 1)) ⟨0, 0, gen, len⟩)) ∧
        (key ≠ 0 → t.rcu.state = .loading ∧ t.rcu.fadeDue = true ∧ t.tne.bufA.state = .ready ∧ t.tne.bufA.chain.slots = []) ∧
        (key ≠ 256 → t.tun = v.tun ∧ t.tmp = v.tmp ∧ t.pst.lock = {} ∧ t.pst.settingsLock = false ∧ t.rcu.bootPreset = v.rcu.bootPreset) ∧
        (key ≠ 257 → t.swc.bindings = v.swc.bindings) ∧
        (key = 257 → t.swc.bindings = (parseBindings body).1 ∧ t.swc.flips = []) ∧
        (key = 256 → (∀ k ∈ lanes, (inLane t k).cfg = g.ins.getD (k - 1) {} ∧ (inLane t k).dip = .none ∧
            (outLane t k).cfg = g.outs.getD (k - 1) {}) ∧
          t.tun.ref = g.ref ∧ t.tun.window = g.window ∧
          t.tun.mode = { v.tun.mode with channel := g.channel, policy := g.policy, exitOnRecall := g.exitOnRecall } ∧
          t.tmp.midiSource = g.midiSource ∧ t.tmp.presetSets = g.presetSets ∧ t.swc.holdTime = g.holdTime ∧
          t.swc.channel = g.midiChannel ∧ t.swc.directMap = g.directMap ∧ t.rcu.bootPreset = g.boot ∧ t.lkc.footPermit = g.footPermit ∧
          t.pst.lock = g.lock ∧ t.pst.settingsLock = g.settingsLock ∧
          ∀ k : Nat, Mem.get none t.tne.ctrlMap k = g.ctrlMap.getD k none)) ∧
    (∀ (v : State) (key gen₁ len₁ gen₂ len₂ : Nat), v.pst.scanning = true → v.pst.queue = [] → v.pst.reclaim = none → v.rcu.bootDue = true →
      0 < key → key < 256 → 1 ≤ gen₁ → gen₁ < gen₂ → gen₂ ≤ 16777214 → 32 ≤ len₁ → len₁ ≤ 1024 → len₁ % 4 = 0 →
      32 ≤ len₂ → len₂ ≤ 1024 → len₂ % 4 = 0 →
      flashBytes v.pst.flash 0 8 = [0xFC] ++ keyBytes key ++ bytes24 gen₁ ++ bytes16 len₁ →
      flashBytes v.pst.flash len₁ 8 = [0xFC] ++ keyBytes key ++ bytes24 gen₂ ++ bytes16 len₂ → (∀ e ∈ v.pst.flash, e.1 < len₁ + len₂) →
      ∃ t : State, exec (.scanComplete []) v = .next t ∧ t.pst.scanning = false ∧
        (∀ k : Nat, entry t.pst k = if k = key then some ⟨0, len₁, gen₂, len₂⟩ else none) ∧
        sector t.pst 0 = { state := .opened, live := len₂, dead := len₁, next := len₁ + len₂ } ∧ t.pst.nextGen = gen₂ + 1 ∧
        (∀ a : Nat, Mem.get 0xFF t.pst.flash a = if a = 0 then 0xF8 else Mem.get 0xFF v.pst.flash a) ∧
        t.lkc = (post (.scanDone { presets := 1, duplicates := 1, live := len₂, erased := 63, nextGen := gen₂ + 1 }) (ended v)).lkc)

/-- What the scan finds on its walk beside good records. A dead record (its marker neither ERASED nor VALID, or VALID with a kind or number outside
their values) is walked past, counts toward the next generation, and a VALID one is marked SUPERSEDED. A sector that ends at a bad length, or whose
erased space does not read erased, is FULL with the rest dead, and the lowest ERASED sector is OPEN. Of two sectors with space left the one with the
higher generation is OPEN and the other FULL with its space dead. A failed marker step is counted and reported, and the duplicate is dead all the
same. SCAN_DONE carries the counts of what was found (R168, R173, R174, R175). That a duplicate counts among the duplicates alone is the model's
choice (log 79), and so is which bits of the marker that failed have moved (free, log 3). -/
def Obligations.ScanResolvesRecords : Prop :=
  ∀ v : State, v.pst.scanning = true → v.pst.queue = [] → v.pst.reclaim = none → v.rcu.bootDue = true →
    let ended := changeConds (fun c => { c with scanning := false })
    let told := fun (result : ScanResult) (w t : State) => t.pst.scanning = false ∧ t.lkc = (post (.scanDone result) (ended w)).lkc
    let flashIs := fun t : State => ∀ a : Nat, Mem.get 0xFF t.pst.flash a = Mem.get 0xFF v.pst.flash a
    let lenOk := fun n : Nat => 32 ≤ n ∧ n ≤ 1024 ∧ n % 4 = 0
    let genOk := fun n : Nat => 1 ≤ n ∧ n ≤ 16777214
    let valid := fun (a key gen len : Nat) => 0 < key ∧ key < 256 ∧ genOk gen ∧ lenOk len ∧
      flashBytes v.pst.flash a 8 = [0xFC] ++ keyBytes key ++ bytes24 gen ++ bytes16 len
    (∀ (marker kind number : Byte) (gen len : Nat), genOk gen → lenOk len →
      flashBytes v.pst.flash 0 8 = [marker, kind, number] ++ bytes24 gen ++ bytes16 len → (∀ e ∈ v.pst.flash, e.1 < len) → marker ≠ 0xFF →
      (marker ≠ 0xFC ∨ kind = 0 ∨ 3 < kind.toNat ∨ kind ≠ 1 ∧ number ≠ 0) →
      ∃ t : State, exec (.scanComplete []) v = .next t ∧ told { dead := 1, erased := 63, nextGen := gen + 1 } v t ∧ t.pst.dir = [] ∧
        sector t.pst 0 = { state := .opened, live := 0, dead := len, next := len } ∧ (∀ k : Nat, k ≠ 0 → sector t.pst k = {}) ∧
        t.pst.nextGen = gen + 1 ∧
        ∀ a : Nat, Mem.get 0xFF t.pst.flash a = if a = 0 ∧ marker = 0xFC then 0xF8 else Mem.get 0xFF v.pst.flash a) ∧
    (∀ key gen len : Nat, valid 0 key gen len → (∀ e ∈ v.pst.flash, e.1 < 4096) →
      (let n := 256 * (Mem.get 0xFF v.pst.flash (len + 6)).toNat + (Mem.get 0xFF v.pst.flash (len + 7)).toNat
       ¬lenOk n ∨ 4096 < len + n) →
      (∃ a : Nat, len ≤ a ∧ a < 4096 ∧ Mem.get 0xFF v.pst.flash a ≠ 0xFF) →
      ∃ t : State, exec (.scanComplete []) v = .next t ∧
        told { presets := 1, badSectors := 1, live := len, erased := 62, nextGen := gen + 1 } v t ∧ flashIs t ∧
        (∀ k : Nat, entry t.pst k = if k = key then some ⟨0, 0, gen, len⟩ else none) ∧ t.pst.nextGen = gen + 1 ∧
        sector t.pst 0 = { state := .full, live := len, dead := 4096 - len, next := 4096 } ∧ sector t.pst 1 = { state := .opened } ∧
        ∀ k : Nat, 2 ≤ k → sector t.pst k = {}) ∧
    (∀ key₀ gen₀ len₀ key₁ gen₁ len₁ : Nat, valid 0 key₀ gen₀ len₀ → valid 4096 key₁ gen₁ len₁ → key₀ ≠ key₁ → gen₀ ≠ gen₁ →
      (∀ e ∈ v.pst.flash, e.1 < len₀ ∨ 4096 ≤ e.1 ∧ e.1 < 4096 + len₁) →
      let closed := fun len : Nat => ({ state := .full, live := len, dead := 4096 - len, next := 4096 } : Sector)
      let opened := fun len : Nat => ({ state := .opened, live := len, dead := 0, next := len } : Sector)
      ∃ t : State, exec (.scanComplete []) v = .next t ∧
        told { presets := 2, live := len₀ + len₁, erased := 62, nextGen := max gen₀ gen₁ + 1 } v t ∧ flashIs t ∧
        (∀ k : Nat, entry t.pst k =
          if k = key₀ then some ⟨0, 0, gen₀, len₀⟩ else if k = key₁ then some ⟨1, 0, gen₁, len₁⟩ else none) ∧
        t.pst.nextGen = max gen₀ gen₁ + 1 ∧
        sector t.pst 0 = (if gen₁ < gen₀ then opened len₀ else closed len₀) ∧
        sector t.pst 1 = (if gen₁ < gen₀ then closed len₁ else opened len₁) ∧ ∀ k : Nat, 2 ≤ k → sector t.pst k = {}) ∧
    (∀ key gen₁ len₁ gen₂ len₂ : Nat, valid 0 key gen₁ len₁ → valid len₁ key gen₂ len₂ → gen₁ < gen₂ →
      (∀ e ∈ v.pst.flash, e.1 < len₁ + len₂) →
      ∃ t : State, exec (.scanComplete [true]) v = .next t ∧
        told { presets := 1, duplicates := 1, live := len₂, erased := 63, nextGen := gen₂ + 1 }
          (post (.storeFault 0 0 (.supersede ⟨0, 0, gen₁, len₁⟩)) (countEvent 21 v)) t ∧
        (∀ k : Nat, entry t.pst k = if k = key then some ⟨0, len₁, gen₂, len₂⟩ else none) ∧
        sector t.pst 0 = { state := .opened, live := len₂, dead := len₁, next := len₁ + len₂ } ∧ t.pst.nextGen = gen₂ + 1 ∧
        (∀ a : Nat, a ≠ 0 → Mem.get 0xFF t.pst.flash a = Mem.get 0xFF v.pst.flash a) ∧
        Mem.get 0xFF t.pst.flash 0 &&& 0xF8 = 0xF8 ∧ Mem.get 0xFF t.pst.flash 0 ||| 0xFC = 0xFC)

/-- READ_PRESET starts the record's read, or answers NOT_FOUND, with the flash free. An erase in progress is suspended for the read, and goes on at
once where the preset is absent; during a program step or another read it waits behind the reads that wait. A read that is over answers, and is
followed by the first read that waits, or with none by the erase it suspended. LIST_PRESETS answers six bytes for each of up to 64 presets,
those of an absent one being its protection bit and zeros; both are NOT_READY while the store is SCANNING (R153, R158, R197; the flag byte by
log 8). -/
def Obligations.ReadAndListPresets : Prop :=
  (∀ (s : State) (dest : Dest) (e : DirEntry), s.pst.op = some (.read (.link dest) e) →
    let body := (List.range (e.len - 16)).map (fun i => Mem.get 0xFF s.pst.flash (4096 * e.sector + e.off + 16 + i))
    let goes := fun p : Pst => exec .flashReadComplete s =
      .next (answer (some dest) .ok 0 (.bytes (bytes24 e.gen ++ bytes16 e.len ++ body)) { s with pst := p })
    (∀ k : Nat, s.pst.reads = [] → s.pst.suspended = some k → goes { s.pst with op := some (.erase k), suspended := none }) ∧
    (∀ (r : ReadReq) (rest : List ReadReq) (e' : DirEntry), s.pst.reads = r :: rest → entry s.pst r.preset = some e' →
      goes { s.pst with op := some (.read r.reader e'), reads := rest })) ∧
  ∀ (f : Frame) (s : State), Room f.link s →
    let d := destOf f s
    let u := arrived f s
    (∀ hi lo : Byte, f.payload = [hi, lo] →
      let n := 256 * hi.toNat + lo.toNat
      (255 < n → exec (.readPreset f) s = .next (answerCode (some d) .badField u)) ∧
      (n ≤ 255 → s.pst.scanning = true → exec (.readPreset f) s = .next (answerCode (some d) .notReady u)) ∧
      (∀ e : DirEntry, n ≤ 255 → s.pst.scanning = false → s.pst.op = none → s.pst.reads = [] → entry s.pst n = some e →
        exec (.readPreset f) s = .next { u with pst := { s.pst with op := some (.read (.link d) e) } }) ∧
      (n ≤ 255 → s.pst.scanning = false → s.pst.op = none → s.pst.reads = [] → s.pst.suspended = none → s.pst.job = none →
        s.pst.reclaim = none → entry s.pst n = none → exec (.readPreset f) s = .next (answerCode (some d) .notFound u)) ∧
      (∀ k : Nat, n ≤ 255 → s.pst.scanning = false → s.pst.op = some (.erase k) → s.pst.reads = [] → s.pst.suspended = none →
        (∀ e : DirEntry, entry s.pst n = some e → exec (.readPreset f) s =
          .next { u with pst := { s.pst with op := some (.read (.link d) e), suspended := some k } }) ∧
        (entry s.pst n = none → exec (.readPreset f) s = .next (answerCode (some d) .notFound u))) ∧
      (n ≤ 255 → s.pst.scanning = false →
        ((∃ (reader : Reader) (e : DirEntry), s.pst.op = some (.read reader e)) ∨
          ∃ (a : Nat) (data : List Byte), s.pst.op = some (.program a data)) →
        exec (.readPreset f) s = .next { u with pst := { s.pst with reads := s.pst.reads ++ [⟨.link d, n⟩] } })) ∧
    (∀ k : Byte, f.payload = [k] →
      (s.pst.scanning = true → exec (.listPresets f) s = .next (answerCode (some d) .notReady u)) ∧
      (s.pst.scanning = false → ∃ bytes : List Byte, exec (.listPresets f) s = .next (answer (some d) .ok 0 (.bytes bytes) u) ∧
        bytes.length = 6 * min 64 (256 - k.toNat) ∧
        ∀ i : Nat, i < min 64 (256 - k.toNat) → (bytes.drop (6 * i)).take 6 =
          (let lock : Byte := if s.pst.lock.holds (k.toNat + i) then 2 else 0
           match entry s.pst (k.toNat + i) with
           | some e => [1 ||| lock, b8 (e.gen / 65536), b8 (e.gen / 256), b8 e.gen, b8 (e.len / 256), b8 e.len]
           | none => [lock, 0, 0, 0, 0, 0])))

/-- SET_GLOBAL writes each field it carries: the tune fields together, and each alone the tempo source and the preset-tempo setting, the hold time
clamped to 200..2,000, the MIDI channel, the direct map, the boot preset and the sample mode; no field, or a field outside its values, is
BAD_FIELD (R101, R119, R195, R196). That the snapshot is zeroed only where sample mode turns on from off is deduced (log 40); that TEMPO_VALUE is
posted before the reply is the model's choice (log 61). -/
def Obligations.SetGlobalWritesFields : Prop :=
  ∀ (f : Frame) (s : State) (hi lo : Byte) (v : List Byte), Room f.link s → MayEdit f.link s → f.payload = hi :: lo :: v →
    let d := destOf f s
    let u := arrived f s
    let ok := fun (t : State) => exec (.setGlobal f) s = .next (answer (some d) .ok 0 .none t)
    let bad := exec (.setGlobal f) s = .next (answerCode (some d) .badField u)
    (hi = 0 → lo = 0 → v = [] → bad) ∧
    (∀ c p e : Byte, hi = 0 → lo = 7 → v = [c, p, e] → (2 < c.toNat ∨ 2 < p.toNat ∨ 1 < e.toNat → bad) ∧
      (c.toNat ≤ 2 → p.toNat ≤ 2 → e.toNat ≤ 1 → ∃ t : State, ok t ∧
        t.tun = { s.tun with mode := {
          on := s.tun.mode.on, channel := if c = 0 then .t1 else if c = 1 then .t2 else .follow
          policy := if p = 0 then .mute else if p = 1 then .dry else .live, exitOnRecall := decide (e = 1) } } ∧
        t.tne.mute = { s.tne.mute with tune := s.tun.mode.on && decide (p ≠ 2) } ∧
        t.tmp = s.tmp ∧ t.rcu = s.rcu ∧ t.lkc = u.lkc)) ∧
    (∀ x : Byte, v = [x] →
      (hi = 0 → lo = 16 → (1 < x.toNat → bad) ∧
        (x.toNat ≤ 1 → ok { u with tmp := { u.tmp with presetSets := decide (x = 1) } })) ∧
      (hi = 0 → lo = 64 → (16 < x.toNat → bad) ∧
        (x.toNat ≤ 16 → ok { u with swc := { u.swc with channel := if x = 0 then none else some x.toNat } })) ∧
      (hi = 0 → lo = 128 → (1 < x.toNat → bad) ∧
        (x.toNat ≤ 1 → ok { u with swc := { u.swc with directMap := decide (x = 1) } })) ∧
      (hi = 1 → lo = 0 → ok { u with rcu := { u.rcu with bootPreset := x.toNat } }) ∧
      (hi = 2 → lo = 0 → (1 < x.toNat → bad) ∧
        (x.toNat ≤ 1 → ok { u with lkc := { u.lkc with
          sampleMode := decide (x = 1)
          snapshot := if x = 1 ∧ s.lkc.sampleMode = false then [] else s.lkc.snapshot } })) ∧
      (hi = 0 → lo = 8 → (1 < x.toNat → bad) ∧
        (x = 0 → ∃ t : State, ok t ∧ t.tmp.midiSource = false ∧ t.tmp.tempo = s.tmp.internal ∧
          t.tmp.beat = (28800000 + s.tmp.internal / 2) / s.tmp.internal ∧ t.tmp.internal = s.tmp.internal) ∧
        (x = 1 → s.tmp.midiSource = false → s.tmp.follower.state ≠ .locked → ∃ t : State, ok t ∧ t.tmp.midiSource = true ∧
          t.tmp.heldTempo = s.tmp.tempo ∧ t.tmp.heldBeat = s.tmp.beat ∧ t.tmp.tempo = s.tmp.tempo ∧ t.tmp.beat = s.tmp.beat))) ∧
    (∀ x y : Byte, v = [x, y] → hi = 0 → lo = 32 →
      let ms := 256 * x.toNat + y.toNat
      exec (.setGlobal f) s = .next (answer (some d) .ok (if 200 ≤ ms ∧ ms ≤ 2000 then 0 else 1) .none
        { u with swc := { u.swc with holdTime := max 200 (min 2000 ms) } }))

end
end

