-- ==== Sys2Proof/Laws/State.lean ====
section
/-! SUPPORT. What each named update of the state leaves alone, field by field. -/

namespace Sys2Proof.Machine

set_option Elab.async false

/-! ## The blocks -/

@[simp] theorem withAup_aup (f : Aup → Aup) (s : State) : (withAup f s).aup = f s.aup := rfl
@[simp] theorem withAup_tne (f : Aup → Aup) (s : State) : (withAup f s).tne = s.tne := rfl
@[simp] theorem withAup_lma (f : Aup → Aup) (s : State) : (withAup f s).lma = s.lma := rfl
@[simp] theorem withAup_tun (f : Aup → Aup) (s : State) : (withAup f s).tun = s.tun := rfl
@[simp] theorem withAup_tmp (f : Aup → Aup) (s : State) : (withAup f s).tmp = s.tmp := rfl
@[simp] theorem withAup_swc (f : Aup → Aup) (s : State) : (withAup f s).swc = s.swc := rfl
@[simp] theorem withAup_rcu (f : Aup → Aup) (s : State) : (withAup f s).rcu = s.rcu := rfl
@[simp] theorem withAup_pst (f : Aup → Aup) (s : State) : (withAup f s).pst = s.pst := rfl
@[simp] theorem withAup_acd (f : Aup → Aup) (s : State) : (withAup f s).acd = s.acd := rfl
@[simp] theorem withAup_lkc (f : Aup → Aup) (s : State) : (withAup f s).lkc = s.lkc := rfl
@[simp] theorem withAup_timebase (f : Aup → Aup) (s : State) : (withAup f s).timebase = s.timebase := rfl
@[simp] theorem withAup_free (f : Aup → Aup) (s : State) : (withAup f s).free = s.free := rfl
@[simp] theorem withAup_pending (f : Aup → Aup) (s : State) : (withAup f s).pending = s.pending := rfl

@[simp] theorem withTne_tne (f : Tne → Tne) (s : State) : (withTne f s).tne = f s.tne := rfl
@[simp] theorem withTne_aup (f : Tne → Tne) (s : State) : (withTne f s).aup = s.aup := rfl
@[simp] theorem withTne_lma (f : Tne → Tne) (s : State) : (withTne f s).lma = s.lma := rfl
@[simp] theorem withTne_tun (f : Tne → Tne) (s : State) : (withTne f s).tun = s.tun := rfl
@[simp] theorem withTne_tmp (f : Tne → Tne) (s : State) : (withTne f s).tmp = s.tmp := rfl
@[simp] theorem withTne_swc (f : Tne → Tne) (s : State) : (withTne f s).swc = s.swc := rfl
@[simp] theorem withTne_rcu (f : Tne → Tne) (s : State) : (withTne f s).rcu = s.rcu := rfl
@[simp] theorem withTne_pst (f : Tne → Tne) (s : State) : (withTne f s).pst = s.pst := rfl
@[simp] theorem withTne_acd (f : Tne → Tne) (s : State) : (withTne f s).acd = s.acd := rfl
@[simp] theorem withTne_lkc (f : Tne → Tne) (s : State) : (withTne f s).lkc = s.lkc := rfl
@[simp] theorem withTne_timebase (f : Tne → Tne) (s : State) : (withTne f s).timebase = s.timebase := rfl
@[simp] theorem withTne_free (f : Tne → Tne) (s : State) : (withTne f s).free = s.free := rfl
@[simp] theorem withTne_pending (f : Tne → Tne) (s : State) : (withTne f s).pending = s.pending := rfl

@[simp] theorem withLma_lma (f : Lma → Lma) (s : State) : (withLma f s).lma = f s.lma := rfl
@[simp] theorem withLma_aup (f : Lma → Lma) (s : State) : (withLma f s).aup = s.aup := rfl
@[simp] theorem withLma_tne (f : Lma → Lma) (s : State) : (withLma f s).tne = s.tne := rfl
@[simp] theorem withLma_tun (f : Lma → Lma) (s : State) : (withLma f s).tun = s.tun := rfl
@[simp] theorem withLma_tmp (f : Lma → Lma) (s : State) : (withLma f s).tmp = s.tmp := rfl
@[simp] theorem withLma_swc (f : Lma → Lma) (s : State) : (withLma f s).swc = s.swc := rfl
@[simp] theorem withLma_rcu (f : Lma → Lma) (s : State) : (withLma f s).rcu = s.rcu := rfl
@[simp] theorem withLma_pst (f : Lma → Lma) (s : State) : (withLma f s).pst = s.pst := rfl
@[simp] theorem withLma_acd (f : Lma → Lma) (s : State) : (withLma f s).acd = s.acd := rfl
@[simp] theorem withLma_lkc (f : Lma → Lma) (s : State) : (withLma f s).lkc = s.lkc := rfl
@[simp] theorem withLma_timebase (f : Lma → Lma) (s : State) : (withLma f s).timebase = s.timebase := rfl
@[simp] theorem withLma_free (f : Lma → Lma) (s : State) : (withLma f s).free = s.free := rfl
@[simp] theorem withLma_pending (f : Lma → Lma) (s : State) : (withLma f s).pending = s.pending := rfl

@[simp] theorem withTun_tun (f : Tun → Tun) (s : State) : (withTun f s).tun = f s.tun := rfl
@[simp] theorem withTun_aup (f : Tun → Tun) (s : State) : (withTun f s).aup = s.aup := rfl
@[simp] theorem withTun_tne (f : Tun → Tun) (s : State) : (withTun f s).tne = s.tne := rfl
@[simp] theorem withTun_lma (f : Tun → Tun) (s : State) : (withTun f s).lma = s.lma := rfl
@[simp] theorem withTun_tmp (f : Tun → Tun) (s : State) : (withTun f s).tmp = s.tmp := rfl
@[simp] theorem withTun_swc (f : Tun → Tun) (s : State) : (withTun f s).swc = s.swc := rfl
@[simp] theorem withTun_rcu (f : Tun → Tun) (s : State) : (withTun f s).rcu = s.rcu := rfl
@[simp] theorem withTun_pst (f : Tun → Tun) (s : State) : (withTun f s).pst = s.pst := rfl
@[simp] theorem withTun_acd (f : Tun → Tun) (s : State) : (withTun f s).acd = s.acd := rfl
@[simp] theorem withTun_lkc (f : Tun → Tun) (s : State) : (withTun f s).lkc = s.lkc := rfl
@[simp] theorem withTun_timebase (f : Tun → Tun) (s : State) : (withTun f s).timebase = s.timebase := rfl
@[simp] theorem withTun_free (f : Tun → Tun) (s : State) : (withTun f s).free = s.free := rfl
@[simp] theorem withTun_pending (f : Tun → Tun) (s : State) : (withTun f s).pending = s.pending := rfl

@[simp] theorem withTmp_tmp (f : Tmp → Tmp) (s : State) : (withTmp f s).tmp = f s.tmp := rfl
@[simp] theorem withTmp_aup (f : Tmp → Tmp) (s : State) : (withTmp f s).aup = s.aup := rfl
@[simp] theorem withTmp_tne (f : Tmp → Tmp) (s : State) : (withTmp f s).tne = s.tne := rfl
@[simp] theorem withTmp_lma (f : Tmp → Tmp) (s : State) : (withTmp f s).lma = s.lma := rfl
@[simp] theorem withTmp_tun (f : Tmp → Tmp) (s : State) : (withTmp f s).tun = s.tun := rfl
@[simp] theorem withTmp_swc (f : Tmp → Tmp) (s : State) : (withTmp f s).swc = s.swc := rfl
@[simp] theorem withTmp_rcu (f : Tmp → Tmp) (s : State) : (withTmp f s).rcu = s.rcu := rfl
@[simp] theorem withTmp_pst (f : Tmp → Tmp) (s : State) : (withTmp f s).pst = s.pst := rfl
@[simp] theorem withTmp_acd (f : Tmp → Tmp) (s : State) : (withTmp f s).acd = s.acd := rfl
@[simp] theorem withTmp_lkc (f : Tmp → Tmp) (s : State) : (withTmp f s).lkc = s.lkc := rfl
@[simp] theorem withTmp_timebase (f : Tmp → Tmp) (s : State) : (withTmp f s).timebase = s.timebase := rfl
@[simp] theorem withTmp_free (f : Tmp → Tmp) (s : State) : (withTmp f s).free = s.free := rfl
@[simp] theorem withTmp_pending (f : Tmp → Tmp) (s : State) : (withTmp f s).pending = s.pending := rfl

@[simp] theorem withSwc_swc (f : Swc → Swc) (s : State) : (withSwc f s).swc = f s.swc := rfl
@[simp] theorem withSwc_aup (f : Swc → Swc) (s : State) : (withSwc f s).aup = s.aup := rfl
@[simp] theorem withSwc_tne (f : Swc → Swc) (s : State) : (withSwc f s).tne = s.tne := rfl
@[simp] theorem withSwc_lma (f : Swc → Swc) (s : State) : (withSwc f s).lma = s.lma := rfl
@[simp] theorem withSwc_tun (f : Swc → Swc) (s : State) : (withSwc f s).tun = s.tun := rfl
@[simp] theorem withSwc_tmp (f : Swc → Swc) (s : State) : (withSwc f s).tmp = s.tmp := rfl
@[simp] theorem withSwc_rcu (f : Swc → Swc) (s : State) : (withSwc f s).rcu = s.rcu := rfl
@[simp] theorem withSwc_pst (f : Swc → Swc) (s : State) : (withSwc f s).pst = s.pst := rfl
@[simp] theorem withSwc_acd (f : Swc → Swc) (s : State) : (withSwc f s).acd = s.acd := rfl
@[simp] theorem withSwc_lkc (f : Swc → Swc) (s : State) : (withSwc f s).lkc = s.lkc := rfl
@[simp] theorem withSwc_timebase (f : Swc → Swc) (s : State) : (withSwc f s).timebase = s.timebase := rfl
@[simp] theorem withSwc_free (f : Swc → Swc) (s : State) : (withSwc f s).free = s.free := rfl
@[simp] theorem withSwc_pending (f : Swc → Swc) (s : State) : (withSwc f s).pending = s.pending := rfl

@[simp] theorem withRcu_rcu (f : Rcu → Rcu) (s : State) : (withRcu f s).rcu = f s.rcu := rfl
@[simp] theorem withRcu_aup (f : Rcu → Rcu) (s : State) : (withRcu f s).aup = s.aup := rfl
@[simp] theorem withRcu_tne (f : Rcu → Rcu) (s : State) : (withRcu f s).tne = s.tne := rfl
@[simp] theorem withRcu_lma (f : Rcu → Rcu) (s : State) : (withRcu f s).lma = s.lma := rfl
@[simp] theorem withRcu_tun (f : Rcu → Rcu) (s : State) : (withRcu f s).tun = s.tun := rfl
@[simp] theorem withRcu_tmp (f : Rcu → Rcu) (s : State) : (withRcu f s).tmp = s.tmp := rfl
@[simp] theorem withRcu_swc (f : Rcu → Rcu) (s : State) : (withRcu f s).swc = s.swc := rfl
@[simp] theorem withRcu_pst (f : Rcu → Rcu) (s : State) : (withRcu f s).pst = s.pst := rfl
@[simp] theorem withRcu_acd (f : Rcu → Rcu) (s : State) : (withRcu f s).acd = s.acd := rfl
@[simp] theorem withRcu_lkc (f : Rcu → Rcu) (s : State) : (withRcu f s).lkc = s.lkc := rfl
@[simp] theorem withRcu_timebase (f : Rcu → Rcu) (s : State) : (withRcu f s).timebase = s.timebase := rfl
@[simp] theorem withRcu_free (f : Rcu → Rcu) (s : State) : (withRcu f s).free = s.free := rfl
@[simp] theorem withRcu_pending (f : Rcu → Rcu) (s : State) : (withRcu f s).pending = s.pending := rfl

@[simp] theorem withPst_pst (f : Pst → Pst) (s : State) : (withPst f s).pst = f s.pst := rfl
@[simp] theorem withPst_aup (f : Pst → Pst) (s : State) : (withPst f s).aup = s.aup := rfl
@[simp] theorem withPst_tne (f : Pst → Pst) (s : State) : (withPst f s).tne = s.tne := rfl
@[simp] theorem withPst_lma (f : Pst → Pst) (s : State) : (withPst f s).lma = s.lma := rfl
@[simp] theorem withPst_tun (f : Pst → Pst) (s : State) : (withPst f s).tun = s.tun := rfl
@[simp] theorem withPst_tmp (f : Pst → Pst) (s : State) : (withPst f s).tmp = s.tmp := rfl
@[simp] theorem withPst_swc (f : Pst → Pst) (s : State) : (withPst f s).swc = s.swc := rfl
@[simp] theorem withPst_rcu (f : Pst → Pst) (s : State) : (withPst f s).rcu = s.rcu := rfl
@[simp] theorem withPst_acd (f : Pst → Pst) (s : State) : (withPst f s).acd = s.acd := rfl
@[simp] theorem withPst_lkc (f : Pst → Pst) (s : State) : (withPst f s).lkc = s.lkc := rfl
@[simp] theorem withPst_timebase (f : Pst → Pst) (s : State) : (withPst f s).timebase = s.timebase := rfl
@[simp] theorem withPst_free (f : Pst → Pst) (s : State) : (withPst f s).free = s.free := rfl
@[simp] theorem withPst_pending (f : Pst → Pst) (s : State) : (withPst f s).pending = s.pending := rfl

@[simp] theorem withAcd_acd (f : Acd → Acd) (s : State) : (withAcd f s).acd = f s.acd := rfl
@[simp] theorem withAcd_aup (f : Acd → Acd) (s : State) : (withAcd f s).aup = s.aup := rfl
@[simp] theorem withAcd_tne (f : Acd → Acd) (s : State) : (withAcd f s).tne = s.tne := rfl
@[simp] theorem withAcd_lma (f : Acd → Acd) (s : State) : (withAcd f s).lma = s.lma := rfl
@[simp] theorem withAcd_tun (f : Acd → Acd) (s : State) : (withAcd f s).tun = s.tun := rfl
@[simp] theorem withAcd_tmp (f : Acd → Acd) (s : State) : (withAcd f s).tmp = s.tmp := rfl
@[simp] theorem withAcd_swc (f : Acd → Acd) (s : State) : (withAcd f s).swc = s.swc := rfl
@[simp] theorem withAcd_rcu (f : Acd → Acd) (s : State) : (withAcd f s).rcu = s.rcu := rfl
@[simp] theorem withAcd_pst (f : Acd → Acd) (s : State) : (withAcd f s).pst = s.pst := rfl
@[simp] theorem withAcd_lkc (f : Acd → Acd) (s : State) : (withAcd f s).lkc = s.lkc := rfl
@[simp] theorem withAcd_timebase (f : Acd → Acd) (s : State) : (withAcd f s).timebase = s.timebase := rfl
@[simp] theorem withAcd_free (f : Acd → Acd) (s : State) : (withAcd f s).free = s.free := rfl
@[simp] theorem withAcd_pending (f : Acd → Acd) (s : State) : (withAcd f s).pending = s.pending := rfl

@[simp] theorem withLkc_lkc (f : Lkc → Lkc) (s : State) : (withLkc f s).lkc = f s.lkc := rfl
@[simp] theorem withLkc_aup (f : Lkc → Lkc) (s : State) : (withLkc f s).aup = s.aup := rfl
@[simp] theorem withLkc_tne (f : Lkc → Lkc) (s : State) : (withLkc f s).tne = s.tne := rfl
@[simp] theorem withLkc_lma (f : Lkc → Lkc) (s : State) : (withLkc f s).lma = s.lma := rfl
@[simp] theorem withLkc_tun (f : Lkc → Lkc) (s : State) : (withLkc f s).tun = s.tun := rfl
@[simp] theorem withLkc_tmp (f : Lkc → Lkc) (s : State) : (withLkc f s).tmp = s.tmp := rfl
@[simp] theorem withLkc_swc (f : Lkc → Lkc) (s : State) : (withLkc f s).swc = s.swc := rfl
@[simp] theorem withLkc_rcu (f : Lkc → Lkc) (s : State) : (withLkc f s).rcu = s.rcu := rfl
@[simp] theorem withLkc_pst (f : Lkc → Lkc) (s : State) : (withLkc f s).pst = s.pst := rfl
@[simp] theorem withLkc_acd (f : Lkc → Lkc) (s : State) : (withLkc f s).acd = s.acd := rfl
@[simp] theorem withLkc_timebase (f : Lkc → Lkc) (s : State) : (withLkc f s).timebase = s.timebase := rfl
@[simp] theorem withLkc_free (f : Lkc → Lkc) (s : State) : (withLkc f s).free = s.free := rfl
@[simp] theorem withLkc_pending (f : Lkc → Lkc) (s : State) : (withLkc f s).pending = s.pending := rfl

/-! ## Lanes, buffers, slots and queues -/

@[simp] theorem modInLane_tne (k : Nat) (f : InLane → InLane) (s : State) : (modInLane k f s).tne = s.tne := by rfl
@[simp] theorem modInLane_lma (k : Nat) (f : InLane → InLane) (s : State) : (modInLane k f s).lma = s.lma := by rfl
@[simp] theorem modInLane_tun (k : Nat) (f : InLane → InLane) (s : State) : (modInLane k f s).tun = s.tun := by rfl
@[simp] theorem modInLane_tmp (k : Nat) (f : InLane → InLane) (s : State) : (modInLane k f s).tmp = s.tmp := by rfl
@[simp] theorem modInLane_swc (k : Nat) (f : InLane → InLane) (s : State) : (modInLane k f s).swc = s.swc := by rfl
@[simp] theorem modInLane_rcu (k : Nat) (f : InLane → InLane) (s : State) : (modInLane k f s).rcu = s.rcu := by rfl
@[simp] theorem modInLane_pst (k : Nat) (f : InLane → InLane) (s : State) : (modInLane k f s).pst = s.pst := by rfl
@[simp] theorem modInLane_acd (k : Nat) (f : InLane → InLane) (s : State) : (modInLane k f s).acd = s.acd := by rfl
@[simp] theorem modInLane_lkc (k : Nat) (f : InLane → InLane) (s : State) : (modInLane k f s).lkc = s.lkc := by rfl
@[simp] theorem modInLane_timebase (k : Nat) (f : InLane → InLane) (s : State) : (modInLane k f s).timebase = s.timebase := by rfl
@[simp] theorem modInLane_free (k : Nat) (f : InLane → InLane) (s : State) : (modInLane k f s).free = s.free := by rfl
@[simp] theorem modInLane_pending (k : Nat) (f : InLane → InLane) (s : State) : (modInLane k f s).pending = s.pending := by rfl

@[simp] theorem modOutLane_tne (k : Nat) (f : OutLane → OutLane) (s : State) : (modOutLane k f s).tne = s.tne := by rfl
@[simp] theorem modOutLane_lma (k : Nat) (f : OutLane → OutLane) (s : State) : (modOutLane k f s).lma = s.lma := by rfl
@[simp] theorem modOutLane_tun (k : Nat) (f : OutLane → OutLane) (s : State) : (modOutLane k f s).tun = s.tun := by rfl
@[simp] theorem modOutLane_tmp (k : Nat) (f : OutLane → OutLane) (s : State) : (modOutLane k f s).tmp = s.tmp := by rfl
@[simp] theorem modOutLane_swc (k : Nat) (f : OutLane → OutLane) (s : State) : (modOutLane k f s).swc = s.swc := by rfl
@[simp] theorem modOutLane_rcu (k : Nat) (f : OutLane → OutLane) (s : State) : (modOutLane k f s).rcu = s.rcu := by rfl
@[simp] theorem modOutLane_pst (k : Nat) (f : OutLane → OutLane) (s : State) : (modOutLane k f s).pst = s.pst := by rfl
@[simp] theorem modOutLane_acd (k : Nat) (f : OutLane → OutLane) (s : State) : (modOutLane k f s).acd = s.acd := by rfl
@[simp] theorem modOutLane_lkc (k : Nat) (f : OutLane → OutLane) (s : State) : (modOutLane k f s).lkc = s.lkc := by rfl
@[simp] theorem modOutLane_timebase (k : Nat) (f : OutLane → OutLane) (s : State) : (modOutLane k f s).timebase = s.timebase := by rfl
@[simp] theorem modOutLane_free (k : Nat) (f : OutLane → OutLane) (s : State) : (modOutLane k f s).free = s.free := by rfl
@[simp] theorem modOutLane_pending (k : Nat) (f : OutLane → OutLane) (s : State) : (modOutLane k f s).pending = s.pending := by rfl

@[simp] theorem modBuf_aup (bid : BufId) (f : Buffer → Buffer) (s : State) : (modBuf bid f s).aup = s.aup := by cases bid <;> rfl
@[simp] theorem modBuf_lma (bid : BufId) (f : Buffer → Buffer) (s : State) : (modBuf bid f s).lma = s.lma := by cases bid <;> rfl
@[simp] theorem modBuf_tun (bid : BufId) (f : Buffer → Buffer) (s : State) : (modBuf bid f s).tun = s.tun := by cases bid <;> rfl
@[simp] theorem modBuf_tmp (bid : BufId) (f : Buffer → Buffer) (s : State) : (modBuf bid f s).tmp = s.tmp := by cases bid <;> rfl
@[simp] theorem modBuf_swc (bid : BufId) (f : Buffer → Buffer) (s : State) : (modBuf bid f s).swc = s.swc := by cases bid <;> rfl
@[simp] theorem modBuf_rcu (bid : BufId) (f : Buffer → Buffer) (s : State) : (modBuf bid f s).rcu = s.rcu := by cases bid <;> rfl
@[simp] theorem modBuf_pst (bid : BufId) (f : Buffer → Buffer) (s : State) : (modBuf bid f s).pst = s.pst := by cases bid <;> rfl
@[simp] theorem modBuf_acd (bid : BufId) (f : Buffer → Buffer) (s : State) : (modBuf bid f s).acd = s.acd := by cases bid <;> rfl
@[simp] theorem modBuf_lkc (bid : BufId) (f : Buffer → Buffer) (s : State) : (modBuf bid f s).lkc = s.lkc := by cases bid <;> rfl
@[simp] theorem modBuf_timebase (bid : BufId) (f : Buffer → Buffer) (s : State) : (modBuf bid f s).timebase = s.timebase := by cases bid <;> rfl
@[simp] theorem modBuf_free (bid : BufId) (f : Buffer → Buffer) (s : State) : (modBuf bid f s).free = s.free := by cases bid <;> rfl
@[simp] theorem modBuf_pending (bid : BufId) (f : Buffer → Buffer) (s : State) : (modBuf bid f s).pending = s.pending := by cases bid <;> rfl

@[simp] theorem modChain_aup (bid : BufId) (f : Chain → Chain) (s : State) : (modChain bid f s).aup = s.aup := by cases bid <;> rfl
@[simp] theorem modChain_lma (bid : BufId) (f : Chain → Chain) (s : State) : (modChain bid f s).lma = s.lma := by cases bid <;> rfl
@[simp] theorem modChain_tun (bid : BufId) (f : Chain → Chain) (s : State) : (modChain bid f s).tun = s.tun := by cases bid <;> rfl
@[simp] theorem modChain_tmp (bid : BufId) (f : Chain → Chain) (s : State) : (modChain bid f s).tmp = s.tmp := by cases bid <;> rfl
@[simp] theorem modChain_swc (bid : BufId) (f : Chain → Chain) (s : State) : (modChain bid f s).swc = s.swc := by cases bid <;> rfl
@[simp] theorem modChain_rcu (bid : BufId) (f : Chain → Chain) (s : State) : (modChain bid f s).rcu = s.rcu := by cases bid <;> rfl
@[simp] theorem modChain_pst (bid : BufId) (f : Chain → Chain) (s : State) : (modChain bid f s).pst = s.pst := by cases bid <;> rfl
@[simp] theorem modChain_acd (bid : BufId) (f : Chain → Chain) (s : State) : (modChain bid f s).acd = s.acd := by cases bid <;> rfl
@[simp] theorem modChain_lkc (bid : BufId) (f : Chain → Chain) (s : State) : (modChain bid f s).lkc = s.lkc := by cases bid <;> rfl
@[simp] theorem modChain_timebase (bid : BufId) (f : Chain → Chain) (s : State) : (modChain bid f s).timebase = s.timebase := by cases bid <;> rfl
@[simp] theorem modChain_free (bid : BufId) (f : Chain → Chain) (s : State) : (modChain bid f s).free = s.free := by cases bid <;> rfl
@[simp] theorem modChain_pending (bid : BufId) (f : Chain → Chain) (s : State) : (modChain bid f s).pending = s.pending := by cases bid <;> rfl

@[simp] theorem modSlot_aup (bid : BufId) (i : Nat) (f : Slot → Slot) (s : State) : (modSlot bid i f s).aup = s.aup := by cases bid <;> rfl
@[simp] theorem modSlot_lma (bid : BufId) (i : Nat) (f : Slot → Slot) (s : State) : (modSlot bid i f s).lma = s.lma := by cases bid <;> rfl
@[simp] theorem modSlot_tun (bid : BufId) (i : Nat) (f : Slot → Slot) (s : State) : (modSlot bid i f s).tun = s.tun := by cases bid <;> rfl
@[simp] theorem modSlot_tmp (bid : BufId) (i : Nat) (f : Slot → Slot) (s : State) : (modSlot bid i f s).tmp = s.tmp := by cases bid <;> rfl
@[simp] theorem modSlot_swc (bid : BufId) (i : Nat) (f : Slot → Slot) (s : State) : (modSlot bid i f s).swc = s.swc := by cases bid <;> rfl
@[simp] theorem modSlot_rcu (bid : BufId) (i : Nat) (f : Slot → Slot) (s : State) : (modSlot bid i f s).rcu = s.rcu := by cases bid <;> rfl
@[simp] theorem modSlot_pst (bid : BufId) (i : Nat) (f : Slot → Slot) (s : State) : (modSlot bid i f s).pst = s.pst := by cases bid <;> rfl
@[simp] theorem modSlot_acd (bid : BufId) (i : Nat) (f : Slot → Slot) (s : State) : (modSlot bid i f s).acd = s.acd := by cases bid <;> rfl
@[simp] theorem modSlot_lkc (bid : BufId) (i : Nat) (f : Slot → Slot) (s : State) : (modSlot bid i f s).lkc = s.lkc := by cases bid <;> rfl
@[simp] theorem modSlot_timebase (bid : BufId) (i : Nat) (f : Slot → Slot) (s : State) : (modSlot bid i f s).timebase = s.timebase := by cases bid <;> rfl
@[simp] theorem modSlot_free (bid : BufId) (i : Nat) (f : Slot → Slot) (s : State) : (modSlot bid i f s).free = s.free := by cases bid <;> rfl
@[simp] theorem modSlot_pending (bid : BufId) (i : Nat) (f : Slot → Slot) (s : State) : (modSlot bid i f s).pending = s.pending := by cases bid <;> rfl

@[simp] theorem modSlots_aup (bid : BufId) (f : Slot → Slot) (s : State) : (modSlots bid f s).aup = s.aup := by cases bid <;> rfl
@[simp] theorem modSlots_lma (bid : BufId) (f : Slot → Slot) (s : State) : (modSlots bid f s).lma = s.lma := by cases bid <;> rfl
@[simp] theorem modSlots_tun (bid : BufId) (f : Slot → Slot) (s : State) : (modSlots bid f s).tun = s.tun := by cases bid <;> rfl
@[simp] theorem modSlots_tmp (bid : BufId) (f : Slot → Slot) (s : State) : (modSlots bid f s).tmp = s.tmp := by cases bid <;> rfl
@[simp] theorem modSlots_swc (bid : BufId) (f : Slot → Slot) (s : State) : (modSlots bid f s).swc = s.swc := by cases bid <;> rfl
@[simp] theorem modSlots_rcu (bid : BufId) (f : Slot → Slot) (s : State) : (modSlots bid f s).rcu = s.rcu := by cases bid <;> rfl
@[simp] theorem modSlots_pst (bid : BufId) (f : Slot → Slot) (s : State) : (modSlots bid f s).pst = s.pst := by cases bid <;> rfl
@[simp] theorem modSlots_acd (bid : BufId) (f : Slot → Slot) (s : State) : (modSlots bid f s).acd = s.acd := by cases bid <;> rfl
@[simp] theorem modSlots_lkc (bid : BufId) (f : Slot → Slot) (s : State) : (modSlots bid f s).lkc = s.lkc := by cases bid <;> rfl
@[simp] theorem modSlots_timebase (bid : BufId) (f : Slot → Slot) (s : State) : (modSlots bid f s).timebase = s.timebase := by cases bid <;> rfl
@[simp] theorem modSlots_free (bid : BufId) (f : Slot → Slot) (s : State) : (modSlots bid f s).free = s.free := by cases bid <;> rfl
@[simp] theorem modSlots_pending (bid : BufId) (f : Slot → Slot) (s : State) : (modSlots bid f s).pending = s.pending := by cases bid <;> rfl

@[simp] theorem modChan_aup (ch : ChanId) (f : Channel → Channel) (s : State) : (modChan ch f s).aup = s.aup := by cases ch <;> rfl
@[simp] theorem modChan_tne (ch : ChanId) (f : Channel → Channel) (s : State) : (modChan ch f s).tne = s.tne := by cases ch <;> rfl
@[simp] theorem modChan_lma (ch : ChanId) (f : Channel → Channel) (s : State) : (modChan ch f s).lma = s.lma := by cases ch <;> rfl
@[simp] theorem modChan_tmp (ch : ChanId) (f : Channel → Channel) (s : State) : (modChan ch f s).tmp = s.tmp := by cases ch <;> rfl
@[simp] theorem modChan_swc (ch : ChanId) (f : Channel → Channel) (s : State) : (modChan ch f s).swc = s.swc := by cases ch <;> rfl
@[simp] theorem modChan_rcu (ch : ChanId) (f : Channel → Channel) (s : State) : (modChan ch f s).rcu = s.rcu := by cases ch <;> rfl
@[simp] theorem modChan_pst (ch : ChanId) (f : Channel → Channel) (s : State) : (modChan ch f s).pst = s.pst := by cases ch <;> rfl
@[simp] theorem modChan_acd (ch : ChanId) (f : Channel → Channel) (s : State) : (modChan ch f s).acd = s.acd := by cases ch <;> rfl
@[simp] theorem modChan_lkc (ch : ChanId) (f : Channel → Channel) (s : State) : (modChan ch f s).lkc = s.lkc := by cases ch <;> rfl
@[simp] theorem modChan_timebase (ch : ChanId) (f : Channel → Channel) (s : State) : (modChan ch f s).timebase = s.timebase := by cases ch <;> rfl
@[simp] theorem modChan_free (ch : ChanId) (f : Channel → Channel) (s : State) : (modChan ch f s).free = s.free := by cases ch <;> rfl
@[simp] theorem modChan_pending (ch : ChanId) (f : Channel → Channel) (s : State) : (modChan ch f s).pending = s.pending := by cases ch <;> rfl

@[simp] theorem modSwitch_aup (k : Nat) (f : SwitchEntry → SwitchEntry) (s : State) : (modSwitch k f s).aup = s.aup := by rfl
@[simp] theorem modSwitch_tne (k : Nat) (f : SwitchEntry → SwitchEntry) (s : State) : (modSwitch k f s).tne = s.tne := by rfl
@[simp] theorem modSwitch_lma (k : Nat) (f : SwitchEntry → SwitchEntry) (s : State) : (modSwitch k f s).lma = s.lma := by rfl
@[simp] theorem modSwitch_tun (k : Nat) (f : SwitchEntry → SwitchEntry) (s : State) : (modSwitch k f s).tun = s.tun := by rfl
@[simp] theorem modSwitch_tmp (k : Nat) (f : SwitchEntry → SwitchEntry) (s : State) : (modSwitch k f s).tmp = s.tmp := by rfl
@[simp] theorem modSwitch_rcu (k : Nat) (f : SwitchEntry → SwitchEntry) (s : State) : (modSwitch k f s).rcu = s.rcu := by rfl
@[simp] theorem modSwitch_pst (k : Nat) (f : SwitchEntry → SwitchEntry) (s : State) : (modSwitch k f s).pst = s.pst := by rfl
@[simp] theorem modSwitch_acd (k : Nat) (f : SwitchEntry → SwitchEntry) (s : State) : (modSwitch k f s).acd = s.acd := by rfl
@[simp] theorem modSwitch_lkc (k : Nat) (f : SwitchEntry → SwitchEntry) (s : State) : (modSwitch k f s).lkc = s.lkc := by rfl
@[simp] theorem modSwitch_timebase (k : Nat) (f : SwitchEntry → SwitchEntry) (s : State) : (modSwitch k f s).timebase = s.timebase := by rfl
@[simp] theorem modSwitch_free (k : Nat) (f : SwitchEntry → SwitchEntry) (s : State) : (modSwitch k f s).free = s.free := by rfl
@[simp] theorem modSwitch_pending (k : Nat) (f : SwitchEntry → SwitchEntry) (s : State) : (modSwitch k f s).pending = s.pending := by rfl

@[simp] theorem modIo_aup (l : Link) (f : LinkIo → LinkIo) (s : State) : (modIo l f s).aup = s.aup := by cases l <;> rfl
@[simp] theorem modIo_tne (l : Link) (f : LinkIo → LinkIo) (s : State) : (modIo l f s).tne = s.tne := by cases l <;> rfl
@[simp] theorem modIo_lma (l : Link) (f : LinkIo → LinkIo) (s : State) : (modIo l f s).lma = s.lma := by cases l <;> rfl
@[simp] theorem modIo_tun (l : Link) (f : LinkIo → LinkIo) (s : State) : (modIo l f s).tun = s.tun := by cases l <;> rfl
@[simp] theorem modIo_tmp (l : Link) (f : LinkIo → LinkIo) (s : State) : (modIo l f s).tmp = s.tmp := by cases l <;> rfl
@[simp] theorem modIo_swc (l : Link) (f : LinkIo → LinkIo) (s : State) : (modIo l f s).swc = s.swc := by cases l <;> rfl
@[simp] theorem modIo_rcu (l : Link) (f : LinkIo → LinkIo) (s : State) : (modIo l f s).rcu = s.rcu := by cases l <;> rfl
@[simp] theorem modIo_pst (l : Link) (f : LinkIo → LinkIo) (s : State) : (modIo l f s).pst = s.pst := by cases l <;> rfl
@[simp] theorem modIo_acd (l : Link) (f : LinkIo → LinkIo) (s : State) : (modIo l f s).acd = s.acd := by cases l <;> rfl
@[simp] theorem modIo_timebase (l : Link) (f : LinkIo → LinkIo) (s : State) : (modIo l f s).timebase = s.timebase := by cases l <;> rfl
@[simp] theorem modIo_free (l : Link) (f : LinkIo → LinkIo) (s : State) : (modIo l f s).free = s.free := by cases l <;> rfl
@[simp] theorem modIo_pending (l : Link) (f : LinkIo → LinkIo) (s : State) : (modIo l f s).pending = s.pending := by cases l <;> rfl

/-! ## What a link's queues leave alone in the Link Controller -/

@[simp] theorem modIo_lkc_rxMain (l : Link) (f : LinkIo → LinkIo) (s : State) : (modIo l f s).lkc.rxMain = s.lkc.rxMain := by cases l <;> rfl
@[simp] theorem modIo_lkc_rxFoot (l : Link) (f : LinkIo → LinkIo) (s : State) : (modIo l f s).lkc.rxFoot = s.lkc.rxFoot := by cases l <;> rfl
@[simp] theorem modIo_lkc_owner (l : Link) (f : LinkIo → LinkIo) (s : State) : (modIo l f s).lkc.owner = s.lkc.owner := by cases l <;> rfl
@[simp] theorem modIo_lkc_footPermit (l : Link) (f : LinkIo → LinkIo) (s : State) : (modIo l f s).lkc.footPermit = s.lkc.footPermit := by cases l <;> rfl
@[simp] theorem modIo_lkc_footUp (l : Link) (f : LinkIo → LinkIo) (s : State) : (modIo l f s).lkc.footUp = s.lkc.footUp := by cases l <;> rfl
@[simp] theorem modIo_lkc_footRun (l : Link) (f : LinkIo → LinkIo) (s : State) : (modIo l f s).lkc.footRun = s.lkc.footRun := by cases l <;> rfl
@[simp] theorem modIo_lkc_footTimer (l : Link) (f : LinkIo → LinkIo) (s : State) : (modIo l f s).lkc.footTimer = s.lkc.footTimer := by cases l <;> rfl
@[simp] theorem modIo_lkc_counters (l : Link) (f : LinkIo → LinkIo) (s : State) : (modIo l f s).lkc.counters = s.lkc.counters := by cases l <;> rfl
@[simp] theorem modIo_lkc_snapshot (l : Link) (f : LinkIo → LinkIo) (s : State) : (modIo l f s).lkc.snapshot = s.lkc.snapshot := by cases l <;> rfl
@[simp] theorem modIo_lkc_sampleMode (l : Link) (f : LinkIo → LinkIo) (s : State) : (modIo l f s).lkc.sampleMode = s.lkc.sampleMode := by cases l <;> rfl
@[simp] theorem modIo_lkc_stageMain (l : Link) (f : LinkIo → LinkIo) (s : State) : (modIo l f s).lkc.stageMain = s.lkc.stageMain := by cases l <;> rfl
@[simp] theorem modIo_lkc_stageFoot (l : Link) (f : LinkIo → LinkIo) (s : State) : (modIo l f s).lkc.stageFoot = s.lkc.stageFoot := by cases l <;> rfl
@[simp] theorem modIo_lkc_restartDue (l : Link) (f : LinkIo → LinkIo) (s : State) : (modIo l f s).lkc.restartDue = s.lkc.restartDue := by cases l <;> rfl

/-! ## Reports and replies -/

@[simp] theorem postOn_aup (l : Link) (r : Report) (s : State) : (postOn l r s).aup = s.aup := by simp [postOn]
@[simp] theorem postOn_tne (l : Link) (r : Report) (s : State) : (postOn l r s).tne = s.tne := by simp [postOn]
@[simp] theorem postOn_lma (l : Link) (r : Report) (s : State) : (postOn l r s).lma = s.lma := by simp [postOn]
@[simp] theorem postOn_tun (l : Link) (r : Report) (s : State) : (postOn l r s).tun = s.tun := by simp [postOn]
@[simp] theorem postOn_tmp (l : Link) (r : Report) (s : State) : (postOn l r s).tmp = s.tmp := by simp [postOn]
@[simp] theorem postOn_swc (l : Link) (r : Report) (s : State) : (postOn l r s).swc = s.swc := by simp [postOn]
@[simp] theorem postOn_rcu (l : Link) (r : Report) (s : State) : (postOn l r s).rcu = s.rcu := by simp [postOn]
@[simp] theorem postOn_pst (l : Link) (r : Report) (s : State) : (postOn l r s).pst = s.pst := by simp [postOn]
@[simp] theorem postOn_acd (l : Link) (r : Report) (s : State) : (postOn l r s).acd = s.acd := by simp [postOn]
@[simp] theorem postOn_timebase (l : Link) (r : Report) (s : State) : (postOn l r s).timebase = s.timebase := by simp [postOn]
@[simp] theorem postOn_free (l : Link) (r : Report) (s : State) : (postOn l r s).free = s.free := by simp [postOn]
@[simp] theorem postOn_pending (l : Link) (r : Report) (s : State) : (postOn l r s).pending = s.pending := by simp [postOn]
@[simp] theorem postOn_lkc_rxMain (l : Link) (r : Report) (s : State) : (postOn l r s).lkc.rxMain = s.lkc.rxMain := by simp [postOn]
@[simp] theorem postOn_lkc_rxFoot (l : Link) (r : Report) (s : State) : (postOn l r s).lkc.rxFoot = s.lkc.rxFoot := by simp [postOn]
@[simp] theorem postOn_lkc_owner (l : Link) (r : Report) (s : State) : (postOn l r s).lkc.owner = s.lkc.owner := by simp [postOn]
@[simp] theorem postOn_lkc_footPermit (l : Link) (r : Report) (s : State) : (postOn l r s).lkc.footPermit = s.lkc.footPermit := by simp [postOn]
@[simp] theorem postOn_lkc_footUp (l : Link) (r : Report) (s : State) : (postOn l r s).lkc.footUp = s.lkc.footUp := by simp [postOn]
@[simp] theorem postOn_lkc_footRun (l : Link) (r : Report) (s : State) : (postOn l r s).lkc.footRun = s.lkc.footRun := by simp [postOn]
@[simp] theorem postOn_lkc_footTimer (l : Link) (r : Report) (s : State) : (postOn l r s).lkc.footTimer = s.lkc.footTimer := by simp [postOn]
@[simp] theorem postOn_lkc_counters (l : Link) (r : Report) (s : State) : (postOn l r s).lkc.counters = s.lkc.counters := by simp [postOn]
@[simp] theorem postOn_lkc_snapshot (l : Link) (r : Report) (s : State) : (postOn l r s).lkc.snapshot = s.lkc.snapshot := by simp [postOn]
@[simp] theorem postOn_lkc_sampleMode (l : Link) (r : Report) (s : State) : (postOn l r s).lkc.sampleMode = s.lkc.sampleMode := by simp [postOn]
@[simp] theorem postOn_lkc_stageMain (l : Link) (r : Report) (s : State) : (postOn l r s).lkc.stageMain = s.lkc.stageMain := by simp [postOn]
@[simp] theorem postOn_lkc_stageFoot (l : Link) (r : Report) (s : State) : (postOn l r s).lkc.stageFoot = s.lkc.stageFoot := by simp [postOn]
@[simp] theorem postOn_lkc_restartDue (l : Link) (r : Report) (s : State) : (postOn l r s).lkc.restartDue = s.lkc.restartDue := by simp [postOn]

@[simp] theorem postIf_aup (l : Link) (r : Report) (s : State) : (postIf l r s).aup = s.aup := by unfold postIf; split <;> (try split) <;> simp
@[simp] theorem postIf_tne (l : Link) (r : Report) (s : State) : (postIf l r s).tne = s.tne := by unfold postIf; split <;> (try split) <;> simp
@[simp] theorem postIf_lma (l : Link) (r : Report) (s : State) : (postIf l r s).lma = s.lma := by unfold postIf; split <;> (try split) <;> simp
@[simp] theorem postIf_tun (l : Link) (r : Report) (s : State) : (postIf l r s).tun = s.tun := by unfold postIf; split <;> (try split) <;> simp
@[simp] theorem postIf_tmp (l : Link) (r : Report) (s : State) : (postIf l r s).tmp = s.tmp := by unfold postIf; split <;> (try split) <;> simp
@[simp] theorem postIf_swc (l : Link) (r : Report) (s : State) : (postIf l r s).swc = s.swc := by unfold postIf; split <;> (try split) <;> simp
@[simp] theorem postIf_rcu (l : Link) (r : Report) (s : State) : (postIf l r s).rcu = s.rcu := by unfold postIf; split <;> (try split) <;> simp
@[simp] theorem postIf_pst (l : Link) (r : Report) (s : State) : (postIf l r s).pst = s.pst := by unfold postIf; split <;> (try split) <;> simp
@[simp] theorem postIf_acd (l : Link) (r : Report) (s : State) : (postIf l r s).acd = s.acd := by unfold postIf; split <;> (try split) <;> simp
@[simp] theorem postIf_timebase (l : Link) (r : Report) (s : State) : (postIf l r s).timebase = s.timebase := by unfold postIf; split <;> (try split) <;> simp
@[simp] theorem postIf_free (l : Link) (r : Report) (s : State) : (postIf l r s).free = s.free := by unfold postIf; split <;> (try split) <;> simp
@[simp] theorem postIf_pending (l : Link) (r : Report) (s : State) : (postIf l r s).pending = s.pending := by unfold postIf; split <;> (try split) <;> simp
@[simp] theorem postIf_lkc_rxMain (l : Link) (r : Report) (s : State) : (postIf l r s).lkc.rxMain = s.lkc.rxMain := by unfold postIf; split <;> (try split) <;> simp
@[simp] theorem postIf_lkc_rxFoot (l : Link) (r : Report) (s : State) : (postIf l r s).lkc.rxFoot = s.lkc.rxFoot := by unfold postIf; split <;> (try split) <;> simp
@[simp] theorem postIf_lkc_owner (l : Link) (r : Report) (s : State) : (postIf l r s).lkc.owner = s.lkc.owner := by unfold postIf; split <;> (try split) <;> simp
@[simp] theorem postIf_lkc_footPermit (l : Link) (r : Report) (s : State) : (postIf l r s).lkc.footPermit = s.lkc.footPermit := by unfold postIf; split <;> (try split) <;> simp
@[simp] theorem postIf_lkc_footUp (l : Link) (r : Report) (s : State) : (postIf l r s).lkc.footUp = s.lkc.footUp := by unfold postIf; split <;> (try split) <;> simp
@[simp] theorem postIf_lkc_footRun (l : Link) (r : Report) (s : State) : (postIf l r s).lkc.footRun = s.lkc.footRun := by unfold postIf; split <;> (try split) <;> simp
@[simp] theorem postIf_lkc_footTimer (l : Link) (r : Report) (s : State) : (postIf l r s).lkc.footTimer = s.lkc.footTimer := by unfold postIf; split <;> (try split) <;> simp
@[simp] theorem postIf_lkc_counters (l : Link) (r : Report) (s : State) : (postIf l r s).lkc.counters = s.lkc.counters := by unfold postIf; split <;> (try split) <;> simp
@[simp] theorem postIf_lkc_snapshot (l : Link) (r : Report) (s : State) : (postIf l r s).lkc.snapshot = s.lkc.snapshot := by unfold postIf; split <;> (try split) <;> simp
@[simp] theorem postIf_lkc_sampleMode (l : Link) (r : Report) (s : State) : (postIf l r s).lkc.sampleMode = s.lkc.sampleMode := by unfold postIf; split <;> (try split) <;> simp
@[simp] theorem postIf_lkc_stageMain (l : Link) (r : Report) (s : State) : (postIf l r s).lkc.stageMain = s.lkc.stageMain := by unfold postIf; split <;> (try split) <;> simp
@[simp] theorem postIf_lkc_stageFoot (l : Link) (r : Report) (s : State) : (postIf l r s).lkc.stageFoot = s.lkc.stageFoot := by unfold postIf; split <;> (try split) <;> simp
@[simp] theorem postIf_lkc_restartDue (l : Link) (r : Report) (s : State) : (postIf l r s).lkc.restartDue = s.lkc.restartDue := by unfold postIf; split <;> (try split) <;> simp

@[simp] theorem post_aup (r : Report) (s : State) : (post r s).aup = s.aup := by simp [post]
@[simp] theorem post_tne (r : Report) (s : State) : (post r s).tne = s.tne := by simp [post]
@[simp] theorem post_lma (r : Report) (s : State) : (post r s).lma = s.lma := by simp [post]
@[simp] theorem post_tun (r : Report) (s : State) : (post r s).tun = s.tun := by simp [post]
@[simp] theorem post_tmp (r : Report) (s : State) : (post r s).tmp = s.tmp := by simp [post]
@[simp] theorem post_swc (r : Report) (s : State) : (post r s).swc = s.swc := by simp [post]
@[simp] theorem post_rcu (r : Report) (s : State) : (post r s).rcu = s.rcu := by simp [post]
@[simp] theorem post_pst (r : Report) (s : State) : (post r s).pst = s.pst := by simp [post]
@[simp] theorem post_acd (r : Report) (s : State) : (post r s).acd = s.acd := by simp [post]
@[simp] theorem post_timebase (r : Report) (s : State) : (post r s).timebase = s.timebase := by simp [post]
@[simp] theorem post_free (r : Report) (s : State) : (post r s).free = s.free := by simp [post]
@[simp] theorem post_pending (r : Report) (s : State) : (post r s).pending = s.pending := by simp [post]
@[simp] theorem post_lkc_rxMain (r : Report) (s : State) : (post r s).lkc.rxMain = s.lkc.rxMain := by simp [post]
@[simp] theorem post_lkc_rxFoot (r : Report) (s : State) : (post r s).lkc.rxFoot = s.lkc.rxFoot := by simp [post]
@[simp] theorem post_lkc_owner (r : Report) (s : State) : (post r s).lkc.owner = s.lkc.owner := by simp [post]
@[simp] theorem post_lkc_footPermit (r : Report) (s : State) : (post r s).lkc.footPermit = s.lkc.footPermit := by simp [post]
@[simp] theorem post_lkc_footUp (r : Report) (s : State) : (post r s).lkc.footUp = s.lkc.footUp := by simp [post]
@[simp] theorem post_lkc_footRun (r : Report) (s : State) : (post r s).lkc.footRun = s.lkc.footRun := by simp [post]
@[simp] theorem post_lkc_footTimer (r : Report) (s : State) : (post r s).lkc.footTimer = s.lkc.footTimer := by simp [post]
@[simp] theorem post_lkc_counters (r : Report) (s : State) : (post r s).lkc.counters = s.lkc.counters := by simp [post]
@[simp] theorem post_lkc_snapshot (r : Report) (s : State) : (post r s).lkc.snapshot = s.lkc.snapshot := by simp [post]
@[simp] theorem post_lkc_sampleMode (r : Report) (s : State) : (post r s).lkc.sampleMode = s.lkc.sampleMode := by simp [post]
@[simp] theorem post_lkc_stageMain (r : Report) (s : State) : (post r s).lkc.stageMain = s.lkc.stageMain := by simp [post]
@[simp] theorem post_lkc_stageFoot (r : Report) (s : State) : (post r s).lkc.stageFoot = s.lkc.stageFoot := by simp [post]
@[simp] theorem post_lkc_restartDue (r : Report) (s : State) : (post r s).lkc.restartDue = s.lkc.restartDue := by simp [post]

@[simp] theorem answer_aup (d : Option Dest) (c : Code) (n : Byte) (x : ReplyData) (s : State) : (answer d c n x s).aup = s.aup := by cases d <;> simp [answer]
@[simp] theorem answer_tne (d : Option Dest) (c : Code) (n : Byte) (x : ReplyData) (s : State) : (answer d c n x s).tne = s.tne := by cases d <;> simp [answer]
@[simp] theorem answer_lma (d : Option Dest) (c : Code) (n : Byte) (x : ReplyData) (s : State) : (answer d c n x s).lma = s.lma := by cases d <;> simp [answer]
@[simp] theorem answer_tun (d : Option Dest) (c : Code) (n : Byte) (x : ReplyData) (s : State) : (answer d c n x s).tun = s.tun := by cases d <;> simp [answer]
@[simp] theorem answer_tmp (d : Option Dest) (c : Code) (n : Byte) (x : ReplyData) (s : State) : (answer d c n x s).tmp = s.tmp := by cases d <;> simp [answer]
@[simp] theorem answer_swc (d : Option Dest) (c : Code) (n : Byte) (x : ReplyData) (s : State) : (answer d c n x s).swc = s.swc := by cases d <;> simp [answer]
@[simp] theorem answer_rcu (d : Option Dest) (c : Code) (n : Byte) (x : ReplyData) (s : State) : (answer d c n x s).rcu = s.rcu := by cases d <;> simp [answer]
@[simp] theorem answer_pst (d : Option Dest) (c : Code) (n : Byte) (x : ReplyData) (s : State) : (answer d c n x s).pst = s.pst := by cases d <;> simp [answer]
@[simp] theorem answer_acd (d : Option Dest) (c : Code) (n : Byte) (x : ReplyData) (s : State) : (answer d c n x s).acd = s.acd := by cases d <;> simp [answer]
@[simp] theorem answer_timebase (d : Option Dest) (c : Code) (n : Byte) (x : ReplyData) (s : State) : (answer d c n x s).timebase = s.timebase := by cases d <;> simp [answer]
@[simp] theorem answer_free (d : Option Dest) (c : Code) (n : Byte) (x : ReplyData) (s : State) : (answer d c n x s).free = s.free := by cases d <;> simp [answer]
@[simp] theorem answer_pending (d : Option Dest) (c : Code) (n : Byte) (x : ReplyData) (s : State) : (answer d c n x s).pending = s.pending := by cases d <;> simp [answer]
@[simp] theorem answer_lkc_rxMain (d : Option Dest) (c : Code) (n : Byte) (x : ReplyData) (s : State) : (answer d c n x s).lkc.rxMain = s.lkc.rxMain := by cases d <;> simp [answer]
@[simp] theorem answer_lkc_rxFoot (d : Option Dest) (c : Code) (n : Byte) (x : ReplyData) (s : State) : (answer d c n x s).lkc.rxFoot = s.lkc.rxFoot := by cases d <;> simp [answer]
@[simp] theorem answer_lkc_owner (d : Option Dest) (c : Code) (n : Byte) (x : ReplyData) (s : State) : (answer d c n x s).lkc.owner = s.lkc.owner := by cases d <;> simp [answer]
@[simp] theorem answer_lkc_footPermit (d : Option Dest) (c : Code) (n : Byte) (x : ReplyData) (s : State) : (answer d c n x s).lkc.footPermit = s.lkc.footPermit := by cases d <;> simp [answer]
@[simp] theorem answer_lkc_footUp (d : Option Dest) (c : Code) (n : Byte) (x : ReplyData) (s : State) : (answer d c n x s).lkc.footUp = s.lkc.footUp := by cases d <;> simp [answer]
@[simp] theorem answer_lkc_footRun (d : Option Dest) (c : Code) (n : Byte) (x : ReplyData) (s : State) : (answer d c n x s).lkc.footRun = s.lkc.footRun := by cases d <;> simp [answer]
@[simp] theorem answer_lkc_footTimer (d : Option Dest) (c : Code) (n : Byte) (x : ReplyData) (s : State) : (answer d c n x s).lkc.footTimer = s.lkc.footTimer := by cases d <;> simp [answer]
@[simp] theorem answer_lkc_counters (d : Option Dest) (c : Code) (n : Byte) (x : ReplyData) (s : State) : (answer d c n x s).lkc.counters = s.lkc.counters := by cases d <;> simp [answer]
@[simp] theorem answer_lkc_snapshot (d : Option Dest) (c : Code) (n : Byte) (x : ReplyData) (s : State) : (answer d c n x s).lkc.snapshot = s.lkc.snapshot := by cases d <;> simp [answer]
@[simp] theorem answer_lkc_sampleMode (d : Option Dest) (c : Code) (n : Byte) (x : ReplyData) (s : State) : (answer d c n x s).lkc.sampleMode = s.lkc.sampleMode := by cases d <;> simp [answer]
@[simp] theorem answer_lkc_stageMain (d : Option Dest) (c : Code) (n : Byte) (x : ReplyData) (s : State) : (answer d c n x s).lkc.stageMain = s.lkc.stageMain := by cases d <;> simp [answer]
@[simp] theorem answer_lkc_stageFoot (d : Option Dest) (c : Code) (n : Byte) (x : ReplyData) (s : State) : (answer d c n x s).lkc.stageFoot = s.lkc.stageFoot := by cases d <;> simp [answer]
@[simp] theorem answer_lkc_restartDue (d : Option Dest) (c : Code) (n : Byte) (x : ReplyData) (s : State) : (answer d c n x s).lkc.restartDue = s.lkc.restartDue := by cases d <;> simp [answer]

@[simp] theorem answerCode_aup (d : Option Dest) (c : Code) (s : State) : (answerCode d c s).aup = s.aup := by simp [answerCode]
@[simp] theorem answerCode_tne (d : Option Dest) (c : Code) (s : State) : (answerCode d c s).tne = s.tne := by simp [answerCode]
@[simp] theorem answerCode_lma (d : Option Dest) (c : Code) (s : State) : (answerCode d c s).lma = s.lma := by simp [answerCode]
@[simp] theorem answerCode_tun (d : Option Dest) (c : Code) (s : State) : (answerCode d c s).tun = s.tun := by simp [answerCode]
@[simp] theorem answerCode_tmp (d : Option Dest) (c : Code) (s : State) : (answerCode d c s).tmp = s.tmp := by simp [answerCode]
@[simp] theorem answerCode_swc (d : Option Dest) (c : Code) (s : State) : (answerCode d c s).swc = s.swc := by simp [answerCode]
@[simp] theorem answerCode_rcu (d : Option Dest) (c : Code) (s : State) : (answerCode d c s).rcu = s.rcu := by simp [answerCode]
@[simp] theorem answerCode_pst (d : Option Dest) (c : Code) (s : State) : (answerCode d c s).pst = s.pst := by simp [answerCode]
@[simp] theorem answerCode_acd (d : Option Dest) (c : Code) (s : State) : (answerCode d c s).acd = s.acd := by simp [answerCode]
@[simp] theorem answerCode_timebase (d : Option Dest) (c : Code) (s : State) : (answerCode d c s).timebase = s.timebase := by simp [answerCode]
@[simp] theorem answerCode_free (d : Option Dest) (c : Code) (s : State) : (answerCode d c s).free = s.free := by simp [answerCode]
@[simp] theorem answerCode_pending (d : Option Dest) (c : Code) (s : State) : (answerCode d c s).pending = s.pending := by simp [answerCode]
@[simp] theorem answerCode_lkc_rxMain (d : Option Dest) (c : Code) (s : State) : (answerCode d c s).lkc.rxMain = s.lkc.rxMain := by simp [answerCode]
@[simp] theorem answerCode_lkc_rxFoot (d : Option Dest) (c : Code) (s : State) : (answerCode d c s).lkc.rxFoot = s.lkc.rxFoot := by simp [answerCode]
@[simp] theorem answerCode_lkc_owner (d : Option Dest) (c : Code) (s : State) : (answerCode d c s).lkc.owner = s.lkc.owner := by simp [answerCode]
@[simp] theorem answerCode_lkc_footPermit (d : Option Dest) (c : Code) (s : State) : (answerCode d c s).lkc.footPermit = s.lkc.footPermit := by simp [answerCode]
@[simp] theorem answerCode_lkc_footUp (d : Option Dest) (c : Code) (s : State) : (answerCode d c s).lkc.footUp = s.lkc.footUp := by simp [answerCode]
@[simp] theorem answerCode_lkc_footRun (d : Option Dest) (c : Code) (s : State) : (answerCode d c s).lkc.footRun = s.lkc.footRun := by simp [answerCode]
@[simp] theorem answerCode_lkc_footTimer (d : Option Dest) (c : Code) (s : State) : (answerCode d c s).lkc.footTimer = s.lkc.footTimer := by simp [answerCode]
@[simp] theorem answerCode_lkc_counters (d : Option Dest) (c : Code) (s : State) : (answerCode d c s).lkc.counters = s.lkc.counters := by simp [answerCode]
@[simp] theorem answerCode_lkc_snapshot (d : Option Dest) (c : Code) (s : State) : (answerCode d c s).lkc.snapshot = s.lkc.snapshot := by simp [answerCode]
@[simp] theorem answerCode_lkc_sampleMode (d : Option Dest) (c : Code) (s : State) : (answerCode d c s).lkc.sampleMode = s.lkc.sampleMode := by simp [answerCode]
@[simp] theorem answerCode_lkc_stageMain (d : Option Dest) (c : Code) (s : State) : (answerCode d c s).lkc.stageMain = s.lkc.stageMain := by simp [answerCode]
@[simp] theorem answerCode_lkc_stageFoot (d : Option Dest) (c : Code) (s : State) : (answerCode d c s).lkc.stageFoot = s.lkc.stageFoot := by simp [answerCode]
@[simp] theorem answerCode_lkc_restartDue (d : Option Dest) (c : Code) (s : State) : (answerCode d c s).lkc.restartDue = s.lkc.restartDue := by simp [answerCode]

@[simp] theorem countEvent_aup (i : Nat) (s : State) : (countEvent i s).aup = s.aup := by simp only [countEvent]; split <;> simp
@[simp] theorem countEvent_tne (i : Nat) (s : State) : (countEvent i s).tne = s.tne := by simp only [countEvent]; split <;> simp
@[simp] theorem countEvent_lma (i : Nat) (s : State) : (countEvent i s).lma = s.lma := by simp only [countEvent]; split <;> simp
@[simp] theorem countEvent_tun (i : Nat) (s : State) : (countEvent i s).tun = s.tun := by simp only [countEvent]; split <;> simp
@[simp] theorem countEvent_tmp (i : Nat) (s : State) : (countEvent i s).tmp = s.tmp := by simp only [countEvent]; split <;> simp
@[simp] theorem countEvent_swc (i : Nat) (s : State) : (countEvent i s).swc = s.swc := by simp only [countEvent]; split <;> simp
@[simp] theorem countEvent_rcu (i : Nat) (s : State) : (countEvent i s).rcu = s.rcu := by simp only [countEvent]; split <;> simp
@[simp] theorem countEvent_pst (i : Nat) (s : State) : (countEvent i s).pst = s.pst := by simp only [countEvent]; split <;> simp
@[simp] theorem countEvent_acd (i : Nat) (s : State) : (countEvent i s).acd = s.acd := by simp only [countEvent]; split <;> simp
@[simp] theorem countEvent_timebase (i : Nat) (s : State) : (countEvent i s).timebase = s.timebase := by simp only [countEvent]; split <;> simp
@[simp] theorem countEvent_free (i : Nat) (s : State) : (countEvent i s).free = s.free := by simp only [countEvent]; split <;> simp
@[simp] theorem countEvent_pending (i : Nat) (s : State) : (countEvent i s).pending = s.pending := by simp only [countEvent]; split <;> simp
@[simp] theorem countEvent_lkc_rxMain (i : Nat) (s : State) : (countEvent i s).lkc.rxMain = s.lkc.rxMain := by simp only [countEvent]; split <;> simp
@[simp] theorem countEvent_lkc_rxFoot (i : Nat) (s : State) : (countEvent i s).lkc.rxFoot = s.lkc.rxFoot := by simp only [countEvent]; split <;> simp
@[simp] theorem countEvent_lkc_owner (i : Nat) (s : State) : (countEvent i s).lkc.owner = s.lkc.owner := by simp only [countEvent]; split <;> simp
@[simp] theorem countEvent_lkc_footPermit (i : Nat) (s : State) : (countEvent i s).lkc.footPermit = s.lkc.footPermit := by simp only [countEvent]; split <;> simp
@[simp] theorem countEvent_lkc_footUp (i : Nat) (s : State) : (countEvent i s).lkc.footUp = s.lkc.footUp := by simp only [countEvent]; split <;> simp
@[simp] theorem countEvent_lkc_footRun (i : Nat) (s : State) : (countEvent i s).lkc.footRun = s.lkc.footRun := by simp only [countEvent]; split <;> simp
@[simp] theorem countEvent_lkc_footTimer (i : Nat) (s : State) : (countEvent i s).lkc.footTimer = s.lkc.footTimer := by simp only [countEvent]; split <;> simp
@[simp] theorem countEvent_lkc_snapshot (i : Nat) (s : State) : (countEvent i s).lkc.snapshot = s.lkc.snapshot := by simp only [countEvent]; split <;> simp
@[simp] theorem countEvent_lkc_sampleMode (i : Nat) (s : State) : (countEvent i s).lkc.sampleMode = s.lkc.sampleMode := by simp only [countEvent]; split <;> simp
@[simp] theorem countEvent_lkc_stageMain (i : Nat) (s : State) : (countEvent i s).lkc.stageMain = s.lkc.stageMain := by simp only [countEvent]; split <;> simp
@[simp] theorem countEvent_lkc_stageFoot (i : Nat) (s : State) : (countEvent i s).lkc.stageFoot = s.lkc.stageFoot := by simp only [countEvent]; split <;> simp
@[simp] theorem countEvent_lkc_restartDue (i : Nat) (s : State) : (countEvent i s).lkc.restartDue = s.lkc.restartDue := by simp only [countEvent]; split <;> simp

@[simp] theorem noteFlight_aup (n : Byte) (s : State) : (noteFlight n s).aup = s.aup := rfl
@[simp] theorem noteFlight_tne (n : Byte) (s : State) : (noteFlight n s).tne = s.tne := rfl
@[simp] theorem noteFlight_lma (n : Byte) (s : State) : (noteFlight n s).lma = s.lma := rfl
@[simp] theorem noteFlight_tun (n : Byte) (s : State) : (noteFlight n s).tun = s.tun := rfl
@[simp] theorem noteFlight_tmp (n : Byte) (s : State) : (noteFlight n s).tmp = s.tmp := rfl
@[simp] theorem noteFlight_swc (n : Byte) (s : State) : (noteFlight n s).swc = s.swc := rfl
@[simp] theorem noteFlight_pst (n : Byte) (s : State) : (noteFlight n s).pst = s.pst := rfl
@[simp] theorem noteFlight_acd (n : Byte) (s : State) : (noteFlight n s).acd = s.acd := rfl
@[simp] theorem noteFlight_lkc (n : Byte) (s : State) : (noteFlight n s).lkc = s.lkc := rfl
@[simp] theorem noteFlight_timebase (n : Byte) (s : State) : (noteFlight n s).timebase = s.timebase := rfl
@[simp] theorem noteFlight_free (n : Byte) (s : State) : (noteFlight n s).free = s.free := rfl
@[simp] theorem noteFlight_pending (n : Byte) (s : State) : (noteFlight n s).pending = s.pending := rfl

end Sys2Proof.Machine
end

