-- ==== Sys2Proof/Laws/Engine.lean ====
section
/-! SUPPORT. What a chain reads of the machine in a sample period, and the input each of its slots is given (R35, R73). -/

namespace Sys2Proof.Machine

/-- A chain reads of the Tone Engine its two kinds of model table alone. -/
theorem chainStep_congr {t t' : Tne} (hc : t'.curves = t.curves) (hf : t'.filters = t.filters) (m : Lma) (lane3 : Int)
    (mem : Mem Int) (slots : List Slot) (x : Int) : chainStep t' m lane3 mem slots x = chainStep t m lane3 mem slots x := by
  have hs (mem : Mem Int) (sl : Slot) (x : Int) : slotStep t' m lane3 mem sl x = slotStep t m lane3 mem sl x := by
    simp only [slotStep, kindStep, driven, filtered, curveOf, filterOf, hc, hf]
  induction slots generalizing mem x with
  | nil => rfl
  | cons sl rest ih => simp only [chainStep, hs, ih]

/-- A chain keeps its number of slots. -/
@[simp] theorem chainStep_length (t : Tne) (m : Lma) (lane3 : Int) (mem : Mem Int) (slots : List Slot) (x : Int) :
    (chainStep t m lane3 mem slots x).slots.length = slots.length := by
  induction slots generalizing mem x with
  | nil => rfl
  | cons sl rest ih => simp [chainStep, ih]

/-- The input of a slot is what the slots before it make of the chain's input; past the end there is none. -/
theorem chainStep_input (t : Tne) (m : Lma) (lane3 : Int) (mem : Mem Int) (slots : List Slot) (x : Int) (i : Nat) :
    (chainStep t m lane3 mem slots x).inputs[i]? =
      if slots.length ≤ i then none else some (chainStep t m lane3 mem (slots.take i) x).y := by
  induction slots generalizing mem x i with
  | nil => simp [chainStep]
  | cons sl rest ih =>
    cases i with
    | zero => simp [chainStep]
    | succ i => simp [chainStep, ih]

end Sys2Proof.Machine
end

