-- ==== Sys2Proof/Laws/Links.lean ====
section
/-! SUPPORT. Acceptance, arrival and replies: what each can do, said once. -/

namespace Sys2Proof.Machine

/-! ## Arrival (R188, R189, R193) -/

@[simp] theorem footFrame_aup (s : State) : (footFrame s).aup = s.aup := by
  unfold footFrame; (repeat' split) <;> simp
@[simp] theorem footFrame_tne (s : State) : (footFrame s).tne = s.tne := by
  unfold footFrame; (repeat' split) <;> simp
@[simp] theorem footFrame_lma (s : State) : (footFrame s).lma = s.lma := by
  unfold footFrame; (repeat' split) <;> simp
@[simp] theorem footFrame_tun (s : State) : (footFrame s).tun = s.tun := by
  unfold footFrame; (repeat' split) <;> simp
@[simp] theorem footFrame_tmp (s : State) : (footFrame s).tmp = s.tmp := by
  unfold footFrame; (repeat' split) <;> simp
@[simp] theorem footFrame_swc (s : State) : (footFrame s).swc = s.swc := by
  unfold footFrame; (repeat' split) <;> simp
@[simp] theorem footFrame_rcu (s : State) : (footFrame s).rcu = s.rcu := by
  unfold footFrame; (repeat' split) <;> simp
@[simp] theorem footFrame_pst (s : State) : (footFrame s).pst = s.pst := by
  unfold footFrame; (repeat' split) <;> simp
@[simp] theorem footFrame_acd (s : State) : (footFrame s).acd = s.acd := by
  unfold footFrame; (repeat' split) <;> simp
@[simp] theorem footFrame_timebase (s : State) : (footFrame s).timebase = s.timebase := by
  unfold footFrame; (repeat' split) <;> simp
@[simp] theorem footFrame_free (s : State) : (footFrame s).free = s.free := by
  unfold footFrame; (repeat' split) <;> simp
@[simp] theorem footFrame_pending (s : State) : (footFrame s).pending = s.pending := by
  unfold footFrame; (repeat' split) <;> simp
@[simp] theorem footFrame_lkc_rxMain (s : State) : (footFrame s).lkc.rxMain = s.lkc.rxMain := by
  unfold footFrame; (repeat' split) <;> simp
@[simp] theorem footFrame_lkc_rxFoot (s : State) : (footFrame s).lkc.rxFoot = s.lkc.rxFoot := by
  unfold footFrame; (repeat' split) <;> simp
@[simp] theorem footFrame_lkc_owner (s : State) : (footFrame s).lkc.owner = s.lkc.owner := by
  unfold footFrame; (repeat' split) <;> simp
@[simp] theorem footFrame_lkc_footPermit (s : State) : (footFrame s).lkc.footPermit = s.lkc.footPermit := by
  unfold footFrame; (repeat' split) <;> simp
@[simp] theorem footFrame_lkc_counters (s : State) : (footFrame s).lkc.counters = s.lkc.counters := by
  unfold footFrame; (repeat' split) <;> simp
@[simp] theorem footFrame_lkc_snapshot (s : State) : (footFrame s).lkc.snapshot = s.lkc.snapshot := by
  unfold footFrame; (repeat' split) <;> simp
@[simp] theorem footFrame_lkc_sampleMode (s : State) : (footFrame s).lkc.sampleMode = s.lkc.sampleMode := by
  unfold footFrame; (repeat' split) <;> simp
@[simp] theorem footFrame_lkc_stageMain (s : State) : (footFrame s).lkc.stageMain = s.lkc.stageMain := by
  unfold footFrame; (repeat' split) <;> simp
@[simp] theorem footFrame_lkc_stageFoot (s : State) : (footFrame s).lkc.stageFoot = s.lkc.stageFoot := by
  unfold footFrame; (repeat' split) <;> simp
@[simp] theorem footFrame_lkc_restartDue (s : State) : (footFrame s).lkc.restartDue = s.lkc.restartDue := by
  unfold footFrame; (repeat' split) <;> simp
@[simp] theorem footFrame_lkc_foot (s : State) : (footFrame s).lkc.foot = s.lkc.foot := by
  unfold footFrame; (repeat' split) <;> simp [postIf, Report.cls, postOn, modIo]
  split <;> rfl
@[simp] theorem frameIn_aup (l : Link) (s : State) : (frameIn l s).aup = s.aup := by cases l <;> simp [frameIn]
@[simp] theorem frameIn_tne (l : Link) (s : State) : (frameIn l s).tne = s.tne := by cases l <;> simp [frameIn]
@[simp] theorem frameIn_lma (l : Link) (s : State) : (frameIn l s).lma = s.lma := by cases l <;> simp [frameIn]
@[simp] theorem frameIn_tun (l : Link) (s : State) : (frameIn l s).tun = s.tun := by cases l <;> simp [frameIn]
@[simp] theorem frameIn_tmp (l : Link) (s : State) : (frameIn l s).tmp = s.tmp := by cases l <;> simp [frameIn]
@[simp] theorem frameIn_swc (l : Link) (s : State) : (frameIn l s).swc = s.swc := by cases l <;> simp [frameIn]
@[simp] theorem frameIn_rcu (l : Link) (s : State) : (frameIn l s).rcu = s.rcu := by cases l <;> simp [frameIn]
@[simp] theorem frameIn_pst (l : Link) (s : State) : (frameIn l s).pst = s.pst := by cases l <;> simp [frameIn]
@[simp] theorem frameIn_acd (l : Link) (s : State) : (frameIn l s).acd = s.acd := by cases l <;> simp [frameIn]
@[simp] theorem frameIn_timebase (l : Link) (s : State) : (frameIn l s).timebase = s.timebase := by cases l <;> simp [frameIn]
@[simp] theorem frameIn_free (l : Link) (s : State) : (frameIn l s).free = s.free := by cases l <;> simp [frameIn]
@[simp] theorem frameIn_pending (l : Link) (s : State) : (frameIn l s).pending = s.pending := by cases l <;> simp [frameIn]
@[simp] theorem frameIn_lkc_owner (l : Link) (s : State) : (frameIn l s).lkc.owner = s.lkc.owner := by cases l <;> simp [frameIn]
@[simp] theorem frameIn_lkc_footPermit (l : Link) (s : State) : (frameIn l s).lkc.footPermit = s.lkc.footPermit := by cases l <;> simp [frameIn]
@[simp] theorem frameIn_lkc_counters (l : Link) (s : State) : (frameIn l s).lkc.counters = s.lkc.counters := by cases l <;> simp [frameIn]
@[simp] theorem frameIn_lkc_snapshot (l : Link) (s : State) : (frameIn l s).lkc.snapshot = s.lkc.snapshot := by cases l <;> simp [frameIn]
@[simp] theorem frameIn_lkc_sampleMode (l : Link) (s : State) : (frameIn l s).lkc.sampleMode = s.lkc.sampleMode := by cases l <;> simp [frameIn]
@[simp] theorem frameIn_lkc_stageMain (l : Link) (s : State) : (frameIn l s).lkc.stageMain = s.lkc.stageMain := by cases l <;> simp [frameIn]
@[simp] theorem frameIn_lkc_stageFoot (l : Link) (s : State) : (frameIn l s).lkc.stageFoot = s.lkc.stageFoot := by cases l <;> simp [frameIn]
@[simp] theorem frameIn_lkc_restartDue (l : Link) (s : State) : (frameIn l s).lkc.restartDue = s.lkc.restartDue := by cases l <;> simp [frameIn]

/-- An arriving frame leaves its own link's queues as they stand. -/
@[simp] theorem io_frameIn (l : Link) (s : State) : io (frameIn l s) l = io s l := by cases l <;> simp [frameIn, io]

@[simp] theorem arrived_aup (f : Frame) (s : State) : (arrived f s).aup = s.aup := by simp [arrived, addEntry]
@[simp] theorem arrived_tne (f : Frame) (s : State) : (arrived f s).tne = s.tne := by simp [arrived, addEntry]
@[simp] theorem arrived_lma (f : Frame) (s : State) : (arrived f s).lma = s.lma := by simp [arrived, addEntry]
@[simp] theorem arrived_tun (f : Frame) (s : State) : (arrived f s).tun = s.tun := by simp [arrived, addEntry]
@[simp] theorem arrived_tmp (f : Frame) (s : State) : (arrived f s).tmp = s.tmp := by simp [arrived, addEntry]
@[simp] theorem arrived_swc (f : Frame) (s : State) : (arrived f s).swc = s.swc := by simp [arrived, addEntry]
@[simp] theorem arrived_rcu (f : Frame) (s : State) : (arrived f s).rcu = s.rcu := by simp [arrived, addEntry]
@[simp] theorem arrived_pst (f : Frame) (s : State) : (arrived f s).pst = s.pst := by simp [arrived, addEntry]
@[simp] theorem arrived_acd (f : Frame) (s : State) : (arrived f s).acd = s.acd := by simp [arrived, addEntry]
@[simp] theorem arrived_timebase (f : Frame) (s : State) : (arrived f s).timebase = s.timebase := by simp [arrived, addEntry]
@[simp] theorem arrived_free (f : Frame) (s : State) : (arrived f s).free = s.free := by simp [arrived, addEntry]
@[simp] theorem arrived_pending (f : Frame) (s : State) : (arrived f s).pending = s.pending := by simp [arrived, addEntry]
@[simp] theorem arrived_lkc_owner (f : Frame) (s : State) : (arrived f s).lkc.owner = s.lkc.owner := by simp [arrived, addEntry]
@[simp] theorem arrived_lkc_footPermit (f : Frame) (s : State) : (arrived f s).lkc.footPermit = s.lkc.footPermit := by simp [arrived, addEntry]
@[simp] theorem arrived_lkc_counters (f : Frame) (s : State) : (arrived f s).lkc.counters = s.lkc.counters := by simp [arrived, addEntry]
@[simp] theorem arrived_lkc_snapshot (f : Frame) (s : State) : (arrived f s).lkc.snapshot = s.lkc.snapshot := by simp [arrived, addEntry]
@[simp] theorem arrived_lkc_sampleMode (f : Frame) (s : State) : (arrived f s).lkc.sampleMode = s.lkc.sampleMode := by simp [arrived, addEntry]
@[simp] theorem arrived_lkc_stageMain (f : Frame) (s : State) : (arrived f s).lkc.stageMain = s.lkc.stageMain := by simp [arrived, addEntry]
@[simp] theorem arrived_lkc_stageFoot (f : Frame) (s : State) : (arrived f s).lkc.stageFoot = s.lkc.stageFoot := by simp [arrived, addEntry]
@[simp] theorem arrived_lkc_restartDue (f : Frame) (s : State) : (arrived f s).lkc.restartDue = s.lkc.restartDue := by simp [arrived, addEntry]

/-! ## Acceptance (R189) -/

/-- What is read of a link's queues after they are changed. -/
@[simp] theorem io_modIo (l : Link) (g : LinkIo → LinkIo) (s : State) : io (modIo l g s) l = g (io s l) := by cases l <;> rfl

/-- A frame with room enters, and the rest is the body's. -/
theorem enter_eq (f : Frame) (go : Dest → State → State) (s : State) (room : Room f.link s) :
    enter f go s = go (destOf f s) (arrived f s) := by
  have h : ¬16 ≤ (io s f.link).entries.length := by simpa [Room] using room
  simp [enter, destOf, arrived, h]

/-- A frame without room is an overrun: one frame error, and nothing else (R189 step 1). -/
theorem enter_overrun (f : Frame) (go : Dest → State → State) (s : State) (full : ¬Room f.link s) :
    enter f go s = countEvent (ctrFrame f.link) (frameIn f.link s) := by
  have h : 16 ≤ (io s f.link).entries.length := by simpa [Room] using full
  simp [enter, h]

theorem refuse_none (form : Form) (f : Frame) (s : State) (fits : form.fits f.payload = true)
    (main : form.mainOnly = true → f.link = .main) (may : form.cls.checked = true → MayEdit f.link s) :
    form.refuse f s = none := by
  unfold Form.refuse
  have hm : (form.mainOnly && decide (f.link = .foot)) = false := by
    cases h : form.mainOnly <;> simp [h] at main ⊢
    simp [main]
  cases hc : form.cls.checked
  · simp [fits, hm]
  · obtain ⟨hp, ho⟩ := may hc
    have h1 : ¬(f.link = .foot ∧ s.lkc.footPermit = false) := fun ⟨a, b⟩ => by simp [hp a] at b
    rcases ho with ho | ho <;> simp [fits, hm, ho]
    all_goals (intro a; exact hp a)

/-- An accepted request is its body's, run on the state it arrived in (R189 step 7). -/
theorem accept_eq (form : Form) (body : Frame → Dest → State → State) (f : Frame) (s : State) (room : Room f.link s)
    (fits : form.fits f.payload = true) (main : form.mainOnly = true → f.link = .main)
    (may : form.cls.checked = true → MayEdit f.link s) :
    accept form body f s = body f (destOf f s) (arrived f s) := by
  unfold accept
  rw [enter_eq f _ s room, refuse_none form f (arrived f s) fits main]
  intro h
  simpa [MayEdit] using may h

end Sys2Proof.Machine
end

