-- ==== Sys2Proof/Laws/Memory.lean ====
section
/-! SUPPORT. The laws of the tables and memories: what reads as what after an update, and that every update keeps the canonical
form. -/

namespace Sys2Proof.Machine

variable {α : Type}

/-! ## Reading after an update -/

theorem Mem.not_mem_drop (m : Mem α) (k : Nat) : ∀ e ∈ Mem.drop m k, e.1 ≠ k := by
  intro e he
  simp [Mem.drop] at he
  exact he.2

theorem Mem.get_unlisted (d : α) (m : Mem α) (k : Nat) (h : ∀ e ∈ m, e.1 ≠ k) : Mem.get d m k = d := by
  induction m with
  | nil => rfl
  | cons e t ih =>
    have h1 : e.1 ≠ k := h e (by simp)
    simp [Mem.get, h1, ih (fun x hx => h x (by simp [hx]))]

@[simp] theorem Mem.get_drop_self (d : α) (m : Mem α) (k : Nat) : Mem.get d (Mem.drop m k) k = d :=
  Mem.get_unlisted d _ k (Mem.not_mem_drop m k)

/-- A filter by number that keeps `a` leaves what stands at `a`. -/
theorem Mem.get_filter (d : α) (m : Mem α) (p : Nat → Bool) (a : Nat) :
    Mem.get d (List.filter (fun e => p e.1) m) a = if p a then Mem.get d m a else d := by
  induction m with
  | nil => simp [Mem.get]
  | cons e t ih =>
    by_cases ha : e.1 = a
    · by_cases hp : p a
      · simp [ha, hp, Mem.get, List.filter]
      · simp [ha, hp, List.filter] at ih ⊢
        exact ih
    · by_cases hp : p e.1
      · simp [ha, hp, Mem.get, List.filter, ih]
      · simp [ha, hp, Mem.get, List.filter, ih]

theorem Mem.get_drop_ne (d : α) (m : Mem α) {k a : Nat} (h : a ≠ k) : Mem.get d (Mem.drop m k) a = Mem.get d m a := by
  have := Mem.get_filter d m (fun j => j != k) a
  simpa [Mem.drop, h] using this

theorem Mem.get_insert (d : α) (m : Mem α) (k : Nat) (v : α) (a : Nat) (h : ∀ e ∈ m, e.1 ≠ k) :
    Mem.get d (Mem.insert m k v) a = if a = k then v else Mem.get d m a := by
  induction m with
  | nil => by_cases ha : a = k <;> simp [Mem.insert, Mem.get, ha, Ne.symm]
  | cons e t ih =>
    have h1 : e.1 ≠ k := h e (by simp)
    have ih := ih (fun x hx => h x (by simp [hx]))
    by_cases hj : k < e.1
    · by_cases ha : a = k
      · simp [Mem.insert, hj, Mem.get, ha]
      · simp [Mem.insert, hj, Mem.get, ha, Ne.symm ha]
    · by_cases ha : a = k
      · subst ha
        simp [Mem.insert, hj, Mem.get, h1, ih]
      · simp [Mem.insert, hj, Mem.get, ih, ha]

/-- A write is read back at its number, and nowhere else. -/
theorem Mem.get_set [DecidableEq α] (d : α) (m : Mem α) (k : Nat) (v : α) (a : Nat) :
    Mem.get d (Mem.set d m k v) a = if a = k then v else Mem.get d m a := by
  unfold Mem.set
  by_cases hv : v = d
  · by_cases ha : a = k
    · simp [hv, ha]
    · simp [hv, ha, Mem.get_drop_ne]
  · by_cases ha : a = k
    · simp [hv, ha, Mem.get_insert d _ k v _ (Mem.not_mem_drop m k)]
    · simp [hv, ha, Mem.get_insert d _ k v _ (Mem.not_mem_drop m k), Mem.get_drop_ne d m ha]

@[simp] theorem Mem.get_set_self [DecidableEq α] (d : α) (m : Mem α) (k : Nat) (v : α) : Mem.get d (Mem.set d m k v) k = v := by
  simp [Mem.get_set]

theorem Mem.get_set_ne [DecidableEq α] (d : α) (m : Mem α) {k a : Nat} (v : α) (h : a ≠ k) :
    Mem.get d (Mem.set d m k v) a = Mem.get d m a := by simp [Mem.get_set, h]

@[simp] theorem Mem.get_modify_self [DecidableEq α] (d : α) (m : Mem α) (k : Nat) (f : α → α) :
    Mem.get d (Mem.modify d m k f) k = f (Mem.get d m k) := by simp [Mem.modify]

theorem Mem.get_modify_ne [DecidableEq α] (d : α) (m : Mem α) {k a : Nat} (f : α → α) (h : a ≠ k) :
    Mem.get d (Mem.modify d m k f) a = Mem.get d m a := by simp [Mem.modify, Mem.get_set, h]

/-- A cleared range reads as unlisted, and nothing else changes. -/
theorem Mem.get_clear (d : α) (m : Mem α) (lo n a : Nat) :
    Mem.get d (Mem.clear m lo n) a = if lo ≤ a ∧ a < lo + n then d else Mem.get d m a := by
  unfold Mem.clear
  rw [Mem.get_filter d m (fun j => !(decide (lo ≤ j) && decide (j < lo + n))) a]
  by_cases h1 : lo ≤ a <;> by_cases h2 : a < lo + n <;> simp [h1, h2]

/-- Values written one after another are read back, and nothing else changes. -/
theorem Mem.get_setMany [DecidableEq α] (d : α) (vs : List α) (m : Mem α) (k a : Nat) :
    Mem.get d (Mem.setMany d m k vs) a = if k ≤ a ∧ a < k + vs.length then vs.getD (a - k) d else Mem.get d m a := by
  induction vs generalizing m k with
  | nil =>
    have : ¬(k ≤ a ∧ a < k) := by omega
    simp [Mem.setMany, this]
  | cons v t ih =>
    simp only [Mem.setMany, ih, Mem.get_set, List.length_cons]
    by_cases h0 : a = k
    · subst h0
      simp
    · by_cases h1 : k + 1 ≤ a ∧ a < k + 1 + t.length
      · have h2 : k ≤ a ∧ a < k + (t.length + 1) := by omega
        have h3 : a - k = (a - (k + 1)) + 1 := by omega
        simp [h1, h2, h3]
      · have h2 : ¬(k ≤ a ∧ a < k + (t.length + 1)) := by omega
        rw [if_neg h1, if_neg h2, if_neg h0]

/-- Consecutive entries, read one by one. -/
theorem Mem.getMany_eq (d : α) (m : Mem α) (k n : Nat) : Mem.getMany d m k n = (List.range n).map (fun i => Mem.get d m (k + i)) := by
  induction n generalizing k with
  | zero => rfl
  | succ n ih =>
    simp only [Mem.getMany, ih, List.range_succ_eq_map, List.map_cons, List.map_map, Nat.add_zero]
    congr 1
    exact List.map_congr_left fun i _ => by simp only [Function.comp]; congr 1; omega

/-! ## The canonical form -/

theorem Mem.wf_nil (d : α) : Mem.Wf d ([] : Mem α) := by simp [Mem.Wf]

/-- A filter keeps the canonical form. -/
theorem Mem.wf_filter {d : α} {m : Mem α} (p : Nat × α → Bool) (h : Mem.Wf d m) : Mem.Wf d (List.filter p m) :=
  ⟨h.1.filter _, fun e he => h.2 e (List.mem_filter.mp he).1⟩

theorem Mem.wf_drop {d : α} {m : Mem α} (k : Nat) (h : Mem.Wf d m) : Mem.Wf d (Mem.drop m k) := Mem.wf_filter _ h

theorem Mem.wf_clear {d : α} {m : Mem α} (lo n : Nat) (h : Mem.Wf d m) : Mem.Wf d (Mem.clear m lo n) := Mem.wf_filter _ h

theorem Mem.mem_insert {m : Mem α} {k : Nat} {v : α} {e : Nat × α} (h : e ∈ Mem.insert m k v) : e = (k, v) ∨ e ∈ m := by
  induction m with
  | nil => simpa [Mem.insert] using h
  | cons x t ih =>
    by_cases hj : k < x.1
    · simpa [Mem.insert, hj] using h
    · simp [Mem.insert, hj] at h
      rcases h with h | h
      · simp [h]
      · rcases ih h with h | h <;> simp [h]

theorem Mem.wf_insert {d : α} {m : Mem α} (k : Nat) (v : α) (hv : v ≠ d) (hk : ∀ e ∈ m, e.1 ≠ k) (h : Mem.Wf d m) :
    Mem.Wf d (Mem.insert m k v) := by
  refine ⟨?_, fun e he => ?_⟩
  · obtain ⟨h, -⟩ := h
    induction m with
    | nil => simp [Mem.insert]
    | cons x t ih =>
      obtain ⟨hx, ht⟩ := List.pairwise_cons.mp h
      have hxk : x.1 ≠ k := hk x (by simp)
      by_cases hj : k < x.1
      · simp only [Mem.insert, hj, if_true]
        refine List.pairwise_cons.mpr ⟨fun e he => ?_, h⟩
        rcases List.mem_cons.mp he with rfl | he
        · exact hj
        · exact lt_trans hj (hx e he)
      · simp only [Mem.insert, hj, if_false]
        refine List.pairwise_cons.mpr ⟨fun e he => ?_, ih (fun e he => hk e (by simp [he])) ht⟩
        rcases Mem.mem_insert he with rfl | he
        · exact lt_of_le_of_ne (not_lt.mp hj) hxk
        · exact hx e he
  · rcases Mem.mem_insert he with rfl | he
    · exact hv
    · exact h.2 e he

/-- A write keeps the canonical form. -/
theorem Mem.wf_set [DecidableEq α] {d : α} {m : Mem α} (k : Nat) (v : α) (h : Mem.Wf d m) : Mem.Wf d (Mem.set d m k v) := by
  unfold Mem.set
  split
  · exact Mem.wf_drop k h
  · next hv => exact Mem.wf_insert k v hv (Mem.not_mem_drop m k) (Mem.wf_drop k h)

theorem Mem.wf_modify [DecidableEq α] {d : α} {m : Mem α} (k : Nat) (f : α → α) (h : Mem.Wf d m) :
    Mem.Wf d (Mem.modify d m k f) := Mem.wf_set k _ h

theorem Mem.wf_setMany [DecidableEq α] {d : α} (vs : List α) {m : Mem α} (k : Nat) (h : Mem.Wf d m) :
    Mem.Wf d (Mem.setMany d m k vs) := by
  induction vs generalizing m k with
  | nil => exact h
  | cons v t ih => exact ih (k + 1) (Mem.wf_set k v h)

/-! ## The last element of a list that a predicate holds of -/

/-- The last element a predicate holds of has none of them after it. -/
theorem findLast_eq_some {α} {p : α → Bool} {l : List α} {x : α} :
    findLast p l = some x ↔ ∃ a b, l = a ++ x :: b ∧ p x = true ∧ ∀ u ∈ b, p u = false := by
  induction l with
  | nil => simp [findLast]
  | cons y t ih =>
    simp only [findLast]
    constructor
    · intro h
      split at h
      · rename_i z hz
        cases h
        obtain ⟨a, b, rfl, hp, hb⟩ := ih.1 hz
        exact ⟨y :: a, b, rfl, hp, hb⟩
      · rename_i hz
        split at h
        · cases h
          refine ⟨[], t, rfl, by assumption, ?_⟩
          clear ih
          induction t with
          | nil => simp
          | cons w t ih =>
            simp only [findLast] at hz
            split at hz
            · cases hz
            · split at hz
              · cases hz
              · rename_i h1 h2
                intro u hu
                rcases List.mem_cons.1 hu with rfl | hu
                · simpa using h2
                · exact ih h1 u hu
        · cases h
    · rintro ⟨a, b, e, hp, hb⟩
      cases a with
      | nil =>
        simp only [List.nil_append, List.cons.injEq] at e
        obtain ⟨rfl, rfl⟩ := e
        have : findLast p t = none := by
          clear ih
          induction t with
          | nil => rfl
          | cons w t ih => simp [findLast, ih (fun u hu => hb u (by simp [hu])), hb w (by simp)]
        simp [this, hp]
      | cons a0 a =>
        simp only [List.cons_append, List.cons.injEq] at e
        obtain ⟨rfl, rfl⟩ := e
        have := ih.2 ⟨a, b, rfl, hp, hb⟩
        simp [this]

/-- A predicate has no last element where it holds of none. -/
theorem findLast_eq_none {α} {p : α → Bool} {l : List α} : findLast p l = none ↔ ∀ u ∈ l, p u = false := by
  induction l with
  | nil => simp [findLast]
  | cons y t ih =>
    simp only [findLast, List.mem_cons, forall_eq_or_imp, ← ih]
    cases findLast p t <;> cases h : p y <;> simp

/-- The last of the mapped elements is the mapped last one. -/
theorem findLast_filterMap {α β} (p : β → Bool) (g : α → Option β) (l : List α) :
    findLast p (l.filterMap g) = (findLast (fun q => (g q).any p) l).bind g := by
  induction l with
  | nil => rfl
  | cons a t ih =>
    cases h : g a with
    | none =>
      simp only [List.filterMap_cons, h, ih, findLast]
      cases h2 : findLast (fun q => (g q).any p) t <;> simp
    | some b =>
      simp only [List.filterMap_cons, h, ih, findLast]
      cases h2 : findLast (fun q => (g q).any p) t with
      | none => cases hb : p b <;> simp [h, hb]
      | some q =>
        have := (findLast_eq_some.1 h2)
        obtain ⟨_, _, _, hq, _⟩ := this
        cases hg : g q with
        | none => simp [hg] at hq
        | some v => simp [hg]

end Sys2Proof.Machine
end

