-- ==== Sys2Proof/Laws/Flash.lean ====
section
/-! SUPPORT. The Preset Store: what the operations on flash, the sector table and the arbiter can do. -/

namespace Sys2Proof.Machine
@[simp] theorem flash_modSector k f p : (modSector k f p).flash = p.flash := rfl
@[simp] theorem flash_kill d p : (kill d p).flash = p.flash := rfl
@[simp] theorem flash_headerDone d p : (headerDone d p).flash = p.flash := rfl
@[simp] theorem flash_recordValid d p : (recordValid d p).flash = p.flash := by unfold recordValid; simp only []; split <;> rfl
@[simp] theorem flash_place n p : (place n p).1.flash = p.flash := by
  unfold place; simp only []; repeat' split
  all_goals rfl

/-- Programming keeps the canonical form of flash. -/
theorem wf_flashProgram (l) (m : Mem Byte) (a) (h : Mem.Wf 0xFF m) : Mem.Wf 0xFF (flashProgram m a l) := by
  induction l generalizing m a with
  | nil => exact h
  | cons v t ih => exact ih _ _ (Mem.wf_set _ _ h)

/-- A failed or torn program step keeps the canonical form of flash. -/
theorem wf_flashSpoil (l) (n) (m : Mem Byte) (a) (h : Mem.Wf 0xFF m) : Mem.Wf 0xFF (flashSpoil n m a l) := by
  induction l generalizing m a with
  | nil => exact h
  | cons v t ih => exact ih _ _ (Mem.wf_set _ _ h)

/-- Erasing keeps the canonical form of flash. -/
theorem wf_flashErase (m : Mem Byte) k (h : Mem.Wf 0xFF m) : Mem.Wf 0xFF (flashErase m k) := Mem.wf_clear _ _ h

/-- A torn erase keeps the canonical form of flash. -/
theorem wf_flashTear (m : Mem Byte) n k (h : Mem.Wf 0xFF m) : Mem.Wf 0xFF (flashTear n m k) := by
  unfold flashTear
  constructor
  · refine List.Pairwise.filterMap _ ?_ h.1
    intro x y hxy b hb b' hb'
    have key : ∀ (x b : Nat × Byte), (if x.1 / 4096 = k then
      if x.2 ||| Config.flashBits n x.1 = 0xFF then none else some (x.1, x.2 ||| Config.flashBits n x.1)
    else some x) = some b → b.1 = x.1 := by
      intro x b e; split at e
      · split at e
        · cases e
        · cases e; rfl
      · cases e; rfl
    rw [key x b hb, key y b' hb']; exact hxy
  · intro e he
    simp only [List.mem_filterMap] at he
    obtain ⟨x, hx, hs⟩ := he
    split at hs
    · split at hs
      · cases hs
      · cases hs; assumption
    · cases hs; exact h.2 _ hx

/-- What a sector's entry reads after one of them is changed. -/
theorem sector_modSector (k j f) (p : Pst) : sector (modSector k f p) j = if j = k then f (sector p k) else sector p j := by
  simp only [sector, modSector, Mem.modify]; rw [Mem.get_set]

/-- Changing one sector's entry keeps the canonical form of the sector table. -/
theorem wf_modSector (k : Nat) (f : Sector → Sector) (p : Pst) (h : Mem.Wf ({} : Sector) p.sectors) :
    Mem.Wf ({} : Sector) (modSector k f p).sectors := by
  unfold modSector; exact Mem.wf_modify k f h

/-- A record's body is the bytes that stand behind its header. -/
theorem bodyOf_eq (p : Pst) (d : DirEntry) :
    bodyOf p d = (List.range (d.len - 16)).map (fun i => Mem.get 0xFF p.flash (4096 * d.sector + d.off + 16 + i)) :=
  Mem.getMany_eq ..

/-- A byte of a record's body: 0 past its end (log 78). -/
theorem rd_bodyOf (p : Pst) (d : DirEntry) (i : Nat) :
    rd (bodyOf p d) i = if i < d.len - 16 then (Mem.get 0xFF p.flash (4096 * d.sector + d.off + 16 + i)).toNat else 0 := by
  rw [bodyOf_eq, rd, List.getD_eq_getElem?_getD, List.getElem?_map]
  split <;> simp_all

/-- The live records of a sector are the directory's entries located in it (R154). -/
theorem liveOf_length (p : Pst) (k : Nat) :
    (liveOf p k).length = p.dir.countP (fun e => e.2.any (fun d => d.sector = k)) := by
  unfold liveOf
  induction p.dir with
  | nil => rfl
  | cons e t ih =>
    obtain ⟨key, _ | d⟩ := e
    · simpa using ih
    · by_cases h : d.sector = k <;> simpa [List.filterMap_cons, List.countP_cons, h] using ih

/-- With ERASED sectors to spare and nothing waiting, no reclaim starts (R169). -/
theorem reclaimMoment_quiet (s : State) (h : 2 < erasedCount s.pst) (hq : s.pst.queue = []) : reclaimMoment s = s := by
  have : tryReclaim s = s := by
    unfold tryReclaim; simp only []; rw [if_neg]; simp; omega
  unfold reclaimMoment; simp [this, hq]

/-- The arbiter with nothing that waits (R153). -/
theorem arbitrate_idle (s : State) (h : s.pst.op = none) (hr : s.pst.reads = []) (hu : s.pst.suspended = none) (hj : s.pst.job = none)
    (hc : ∀ v k e w, s.pst.reclaim ≠ some ⟨v, some ⟨k, e, some w⟩⟩) : arbitrate s = s := by
  unfold arbitrate; rw [h]; simp only [hr, List.length_nil, serveReads, h, hu]
  unfold startNext
  rw [hj]
  simp only []

/-- The arbiter leaves an operation in progress alone (R153). -/
theorem arbitrate_busy (s : State) (h : s.pst.op ≠ none) : arbitrate s = s := by
  unfold arbitrate; split
  · rfl
  · contradiction

/-- A recall's read of an absent entry waits at the head for the Recall Unit: nothing behind it is served (R158). -/
theorem arbitrate_absent (s : State) (n preset : Nat) (rest : List ReadReq) (h : s.pst.op = none)
    (hr : s.pst.reads = ⟨.recall n, preset⟩ :: rest) (he : entry s.pst preset = none) : arbitrate s = s := by
  unfold arbitrate; rw [h]; simp only [hr, List.length_cons, serveReads, he, h]

end Sys2Proof.Machine
end

