-- ==== Sys2Proof/Laws/Lanes.lean ====
section
/-! SUPPORT. Saturation, lanes, tuner channels and posts: what each can do, said once. -/

namespace Sys2Proof.Machine

/-- Saturation as a clamp (R17). -/
theorem sat_eq_clamp (x : Int) : sat x = max (-8388608) (min 8388607 x) := by
  simp only [sat, show sampleMax = 8388607 from rfl, show sampleMin = -8388608 from rfl]; split_ifs <;> omega

/-- A value in range saturates to itself without a clip event (R17). -/
theorem satClip_in_range (x : Int) (h1 : -8388608 ≤ x) (h2 : x ≤ 8388607) : satClip x = ⟨x, false⟩ := by
  have : sat x = x := by rw [sat_eq_clamp]; omega
  simp [satClip, this]

/-- What an input lane reads after one of them is changed. -/
theorem inLane_modInLane (k j f) (s : State) : inLane (modInLane k f s) j = if j = k then f (inLane s k) else inLane s j := by
  simp only [inLane, modInLane, Mem.modify]; rw [Mem.get_set]

/-- What an output lane reads after one of them is changed. -/
theorem outLane_modOutLane (k j f) (s : State) : outLane (modOutLane k f s) j = if j = k then f (outLane s k) else outLane s j := by
  simp only [outLane, modOutLane, Mem.modify]; rw [Mem.get_set]

/-- What an input lane reads after all eight are changed. -/
theorem inLane_allIn (f s k) (hk : k ∈ lanes) : inLane (allIn f s) k = f (inLane s k) := by
  simp only [lanes, List.mem_cons, List.not_mem_nil, or_false] at hk
  rcases hk with rfl | rfl | rfl | rfl | rfl | rfl | rfl | rfl <;> simp [allIn, forAll, lanes, inLane_modInLane]

/-- What an output lane reads after all eight are changed. -/
theorem outLane_allOut (f s k) (hk : k ∈ lanes) : outLane (allOut f s) k = f (outLane s k) := by
  simp only [lanes, List.mem_cons, List.not_mem_nil, or_false] at hk
  rcases hk with rfl | rfl | rfl | rfl | rfl | rfl | rfl | rfl <;> simp [allOut, forAll, lanes, outLane_modOutLane]

/-- A change of the input lanes changes nothing else. -/
theorem allIn_frame (f s) : allIn f s = { s with aup := { s.aup with inLanes := (allIn f s).aup.inLanes } } := by
  simp [allIn, forAll, lanes, modInLane]

/-- A change of the output lanes changes nothing else. -/
theorem allOut_frame (f s) : allOut f s = { s with aup := { s.aup with outLanes := (allOut f s).aup.outLanes } } := by
  simp [allOut, forAll, lanes, modOutLane]

/-- Posting a report changes the Link Controller only. -/
theorem post_frame (r s) : post r s = { s with lkc := (post r s).lkc } := by
  have h : ∀ l (s : State), postIf l r s = { s with lkc := (postIf l r s).lkc } := by
    intro l s; unfold postIf; split
    · split
      · cases l <;> rfl
      · rfl
    · rfl
  unfold post; rw [h .foot, h .main]

/-- Posting a report counts nothing. -/
theorem post_counters (r s) : (post r s).lkc.counters = s.lkc.counters := by
  have h : ∀ l (s : State), (postIf l r s).lkc.counters = s.lkc.counters := by
    intro l s; unfold postIf; split
    · split
      · cases l <;> rfl
      · rfl
    · rfl
  unfold post; rw [h .foot, h .main]

/-- What a tuner channel reads after one of them is changed. -/
theorem chan_modChan (ch c f) (s : State) : chan (modChan ch f s) c = if c = ch then f (chan s ch) else chan s c := by
  cases ch <;> cases c <;> simp [chan, modChan]

/-- Posting a report leaves the tuner channels. -/
theorem chan_post (r c) (s : State) : chan (post r s) c = chan s c := by rw [post_frame]; cases c <;> rfl

/-- A change of a tuner channel changes nothing outside the Tuner Unit. -/
theorem modChan_frame (ch f) (s : State) : modChan ch f s = { s with tun := (modChan ch f s).tun } := by cases ch <;> rfl

/-- What a tuner channel reads after a lock machine has moved. -/
theorem chan_setLock (ch new c) (s : State) : chan (setLock ch new s) c = if c = ch then { chan s ch with lock := new, display := displayAfter (chan s ch).lock new (chan s ch).display } else chan s c := by
  unfold setLock; simp only []; split
  · rw [chan_modChan]
  · rw [chan_post, chan_modChan]

/-- A lock machine that moves changes its channel and posts reports. -/
theorem setLock_frame (ch new) (s : State) : setLock ch new s = { s with tun := (setLock ch new s).tun, lkc := (setLock ch new s).lkc } := by
  unfold setLock; simp only []; split
  · cases ch <;> rfl
  · rw [post_frame]; cases ch <;> rfl

end Sys2Proof.Machine
end

