-- ==== Sys2Proof/Laws/Layouts.lean ====
section
/-! SUPPORT. What a frame that a link sends is like: its sum is 0 and its payload fits (R188, R190, R200); and what a controller
map entry read off its bytes is like (R55, R175). -/

namespace Sys2Proof.Machine

theorem frameSum_concat (bytes : List Byte) (x : Byte) : frameSum (bytes ++ [x]) = frameSum bytes + x := by
  simp [frameSum, List.foldl_append]

/-- The CHECK makes the sum of a frame's bytes after SYNC 0. -/
theorem frameSum_frameBytes (kind tag : Byte) (payload : List Byte) : frameSum ((frameBytes kind tag payload).drop 1) = 0 := by
  simp only [frameBytes, List.drop_succ_cons, List.drop_zero, frameSum_concat]
  bv_omega

/-- No layout takes more than two frames. -/
theorem ReplyData.layout_length (d : ReplyData) : d.layout.length ≤ 490 := by
  cases d <;> simp [ReplyData.layout]

/-- A layout takes two frames exactly when it has more than 245 bytes. -/
theorem ReplyData.long_iff (d : ReplyData) : d.long = true ↔ 245 < d.layout.length := by
  cases d <;> simp [ReplyData.long, ReplyData.layout]

/-- Every frame of a reply fits. -/
theorem Reply.payload_length (r : Reply) (more : Bool) : (r.payload more).length ≤ 248 := by
  have h := ReplyData.layout_length r.data
  have h' := ReplyData.long_iff r.data
  cases more <;> by_cases hl : r.data.long = true <;> simp [Reply.payload, hl] at h' ⊢ <;> omega

/-- The report code is the first byte of a report. -/
@[simp] theorem Report.payload_head (r : Report) : r.payload.head? = some r.code := rfl

/-- A report without fields is its code alone. -/
@[simp] theorem Report.payload_tapIgnored : Report.tapIgnored.payload = [Report.tapIgnored.code] := rfl

/-- Every report fits one frame. -/
theorem Report.payload_length (r : Report) : r.payload.length ≤ 248 := by
  cases r <;> simp [Report.payload, Report.fields]

/-- A map entry read off its bytes has the occurrence given, and a C-class parameter of its kind (R55). -/
theorem readMapEntry_ok {occ : Nat} {p : List Byte} {i : Nat} {e : MapEntry} {clamped : Bool}
    (h : readMapEntry occ p i = some (e, clamped)) : e.occ = occ ∧ e.kind.cls e.param = some .continuous := by
  simp only [readMapEntry] at h
  split at h
  · split at h
    · exact nomatch h
    · rename_i hc
      obtain ⟨rfl, -⟩ := Prod.mk.inj (Option.some.inj h)
      exact ⟨rfl, Decidable.not_not.mp hc⟩
  · exact nomatch h

/-- A stored map entry that is not NONE has an occurrence of 1..4 and a C-class parameter of its kind (R55, R175). -/
theorem parseMapField_ok {p : List Byte} {i : Nat} {e : MapEntry} (h : (parseMapField p i).1 = some e) :
    1 ≤ e.occ ∧ e.occ ≤ 4 ∧ e.kind.cls e.param = some .continuous := by
  simp only [parseMapField] at h
  split at h
  · exact nomatch h
  · split at h
    · exact nomatch h
    · rename_i hr
      obtain ⟨ho, hc⟩ := readMapEntry_ok hr
      obtain rfl := Option.some.inj h
      refine ⟨?_, ?_, hc⟩ <;> rw [ho] <;> simp only [clampedField, clampNat] <;> split <;> (try split) <;> omega

end Sys2Proof.Machine
end

