-- ==== Sys2Proof/Laws/Lines.lean ====
section
/-! SUPPORT. Line memory: regions, the free pool and the delay line, and what each of their operations can do. -/

namespace Sys2Proof.Machine

/-- The pages of all regions. -/
def regionPagesOf (r : Mem (Option Region)) : List Nat := r.flatMap (fun e => match e.2 with | some r => r.pages | none => [])

/-- The pages of the regions, one region taken out. -/
theorem regionPagesOf_drop (m : Mem (Option Region)) (h : Mem.Wf none m) (k) :
    (regionPagesOf m).Perm ((match Mem.get none m k with | none => [] | some r => r.pages) ++ regionPagesOf (Mem.drop m k)) := by
  induction m with
  | nil => simp [regionPagesOf, Mem.get, Mem.drop]
  | cons e t ih =>
    obtain ⟨j, v⟩ := e
    have ht : Mem.Wf none t := ⟨(List.pairwise_cons.1 h.1).2, fun e he => h.2 e (by simp [he])⟩
    have hlt := (List.pairwise_cons.1 h.1).1
    by_cases hk : j = k
    · subst hk
      have : Mem.drop ((j, v) :: t) j = t := by
        simp only [Mem.drop, List.filter_cons, bne_self_eq_false, Bool.false_eq_true, if_false]
        rw [List.filter_eq_self]; intro e he; simpa using Nat.ne_of_gt (hlt e he)
      rw [this]; simp only [Mem.get, if_true, regionPagesOf, List.flatMap_cons]
      cases v <;> exact List.Perm.refl _
    · have : Mem.drop ((j, v) :: t) k = (j, v) :: Mem.drop t k := by simp [Mem.drop, hk]
      rw [this]; simp only [Mem.get, hk, if_false, regionPagesOf, List.flatMap_cons] at *
      exact (List.Perm.append_left _ (ih ht)).trans (by rw [← List.append_assoc, ← List.append_assoc]; exact List.Perm.append_right _ List.perm_append_comm)

/-- The pages of the regions, one region put in. -/
theorem regionPagesOf_insert (m : Mem (Option Region)) (k) (v : Option Region) : (regionPagesOf (Mem.insert m k v)).Perm ((match v with | none => [] | some r => r.pages) ++ regionPagesOf m) := by
  induction m with
  | nil => cases v <;> simp [regionPagesOf, Mem.insert]
  | cons e t ih =>
    simp only [Mem.insert]; split
    · simp only [regionPagesOf, List.flatMap_cons]; cases v <;> exact List.Perm.refl _
    · simp only [regionPagesOf, List.flatMap_cons] at *
      exact (List.Perm.append_left _ ih).trans (by rw [← List.append_assoc, ← List.append_assoc]; exact List.Perm.append_right _ List.perm_append_comm)
theorem mem_insertNat (k l x) : x ∈ insertNat k l ↔ x = k ∨ x ∈ l := by
  induction l with
  | nil => simp [insertNat]
  | cons j t ih => simp only [insertNat]; repeat' split
                   all_goals simp_all
                   tauto
theorem sorted_insertNat (k) (l : List Nat) (h : l.Pairwise (· < ·)) : (insertNat k l).Pairwise (· < ·) := by
  induction l with
  | nil => simp [insertNat]
  | cons j t ih =>
    obtain ⟨h1, h2⟩ := List.pairwise_cons.1 h
    simp only [insertNat]; split
    · rename_i hk; refine List.pairwise_cons.2 ⟨?_, h⟩; intro a ha; rcases List.mem_cons.1 ha with rfl | ha
      · exact hk
      · exact lt_trans hk (h1 a ha)
    · split
      · exact h
      · refine List.pairwise_cons.2 ⟨?_, ih h2⟩; intro a ha; rw [mem_insertNat] at ha; rcases ha with rfl | ha
        · omega
        · exact h1 a ha
theorem insertNat_perm (k) (l : List Nat) (h : k ∉ l) : (insertNat k l).Perm (k :: l) := by
  induction l with
  | nil => exact List.Perm.refl _
  | cons j t ih =>
    simp only [List.mem_cons, not_or] at h
    simp only [insertNat, h.1, if_false]; split
    · exact List.Perm.refl _
    · exact (List.Perm.cons j (ih h.2)).trans (List.Perm.swap _ _ _)

/-- Pages given back to a rising free pool keep it rising, and none is lost. -/
theorem foldl_insertNat (ps f : List Nat) (hn : (ps ++ f).Nodup) (h : f.Pairwise (· < ·)) :
    (ps.foldl (fun f p => insertNat p f) f).Pairwise (· < ·) ∧ (ps.foldl (fun f p => insertNat p f) f).Perm (ps ++ f) := by
  induction ps generalizing f with
  | nil => exact ⟨h, List.Perm.refl _⟩
  | cons p t ih =>
    simp only [List.cons_append, List.nodup_cons, List.mem_append, not_or] at hn
    have hp := insertNat_perm p f hn.1.2
    have hn2 : (t ++ insertNat p f).Nodup := by
      rw [(List.Perm.append_left t hp).nodup_iff, List.perm_middle.nodup_iff, List.nodup_cons]; exact ⟨by simpa using hn.1, hn.2⟩
    obtain ⟨a, b⟩ := ih _ hn2 (sorted_insertNat p f h)
    exact ⟨a, b.trans ((List.Perm.append_left t hp).trans List.perm_middle)⟩

/-- Freeing a region keeps the line pages (R62). -/
theorem pagesOk_freeRegion (id) (m : Lma) (h : PagesOk m) : PagesOk (freeRegion id m) := by
  obtain ⟨hw, hs, hp⟩ := h
  unfold freeRegion; split
  · exact ⟨hw, hs, hp⟩
  · rename_i k
    have hd := regionPagesOf_drop m.regions hw k
    have e : regionPages m (some k) = (match Mem.get none m.regions k with | none => [] | some r => r.pages) := rfl
    rw [← e] at hd
    have hnd : (regionPages m (some k) ++ m.free).Nodup := by
      have : (m.free ++ (regionPages m (some k) ++ regionPagesOf (Mem.drop m.regions k))).Nodup := by
        rw [← (List.Perm.append_left m.free hd).nodup_iff]; exact hp.nodup_iff.2 List.nodup_range
      rw [← List.append_assoc] at this
      exact (List.perm_append_comm.nodup_iff).1 (List.nodup_append.1 this).1
    obtain ⟨a, b⟩ := foldl_insertNat _ _ hnd hs
    refine ⟨Mem.wf_drop _ hw, a, ?_⟩
    refine (List.Perm.append_right _ b).trans ?_
    refine List.Perm.trans ?_ hp
    show ((regionPages m (some k) ++ m.free) ++ regionPagesOf (Mem.drop m.regions k)).Perm (m.free ++ regionPagesOf m.regions)
    refine List.Perm.trans ?_ (List.Perm.append_left m.free hd).symm
    rw [← List.append_assoc]; exact List.Perm.append_right _ List.perm_append_comm

/-- Freeing regions keeps the line pages. -/
theorem pagesOk_freeRegions (p) (m : Lma) (h : PagesOk m) : PagesOk (freeRegions p m) := by
  unfold freeRegions; generalize regionsOf p m = l
  induction l generalizing m with
  | nil => exact h
  | cons a t ih => exact ih _ (pagesOk_freeRegion _ _ h)

/-- The pages of the regions, one region written. -/
theorem regionPagesOf_set (m : Mem (Option Region)) (k) (r : Region) : (regionPagesOf (Mem.set none m k (some r))).Perm (r.pages ++ regionPagesOf (Mem.drop m k)) := by
  simp only [Mem.set, reduceCtorEq, if_false]; exact regionPagesOf_insert _ _ _

/-- The id of a new region is not in use. -/
theorem freshRegion_unused (m : Lma) : Mem.get none m.regions (freshRegion m) = none := by
  unfold freshRegion
  cases hf : (List.range (m.regions.length + 1)).find? (fun k => (Mem.get none m.regions k).isNone) with
  | some k => simpa using List.find?_some hf
  | none =>
    exfalso
    rw [List.find?_eq_none] at hf
    have hmem : ∀ (d : Mem (Option Region)) k, Mem.get none d k ≠ none → k ∈ d.map (·.1) := by
      intro d k h
      induction d with
      | nil => simp [Mem.get] at h
      | cons e t ih =>
        obtain ⟨j, v⟩ := e
        simp only [Mem.get] at h; split at h
        · simp_all
        · simp [ih h]
    have hsub : List.range (m.regions.length + 1) ⊆ m.regions.map (·.1) := by
      intro k hk; apply hmem; have := hf k hk; simpa using this
    have := (List.nodup_range.subperm hsub).length_le
    simp at this

/-- A grant keeps the line pages (R63). -/
theorem pagesOk_grantRegion (o n) (m : Lma) (h : PagesOk m) : PagesOk (grantRegion o n m).2 := by
  obtain ⟨hw, hs, hp⟩ := h
  have hd := regionPagesOf_drop m.regions hw (freshRegion m)
  rw [freshRegion_unused] at hd
  unfold grantRegion; simp only []
  refine ⟨Mem.wf_set (freshRegion m) (some ⟨o, m.free.take n⟩) hw, hs.sublist (List.drop_sublist _ _), ?_⟩
  show (m.free.drop n ++ regionPagesOf (Mem.set none m.regions (freshRegion m) (some ⟨o, m.free.take n⟩))).Perm _
  refine (List.Perm.append_left _ (regionPagesOf_set _ _ _)).trans ?_
  refine List.Perm.trans ?_ hp
  refine List.Perm.trans ?_ (List.Perm.append_left m.free hd.symm)
  simp only [List.nil_append]
  rw [← List.append_assoc]; refine List.Perm.append_right _ ?_
  refine List.perm_append_comm.trans ?_; rw [List.take_append_drop]

/-- A change of owner keeps the line pages. -/
theorem pagesOk_setOwner (id o) (m : Lma) (h : PagesOk m) : PagesOk (setOwner id o m) := by
  obtain ⟨hw, hs, hp⟩ := h
  unfold setOwner; split
  · exact ⟨hw, hs, hp⟩
  · rename_i k
    refine ⟨Mem.wf_modify _ _ hw, hs, ?_⟩
    refine List.Perm.trans (List.Perm.append_left _ ?_) hp
    show (regionPagesOf _).Perm (regionPagesOf _)
    have hd := regionPagesOf_drop m.regions hw k
    simp only [Mem.modify]
    cases hg : Mem.get none m.regions k with
    | none => rw [hg] at hd; simp only [Option.map_none, Mem.set, if_true]; exact hd.symm
    | some r => rw [hg] at hd; exact (regionPagesOf_set _ _ _).trans hd.symm

/-- With no region and every page free the line pages are kept. -/
theorem pagesOk_blank (m : Lma) (l : List Nat) (hl : l = List.range 256) (e : m.free = l) (e2 : m.regions = []) : PagesOk m := by
  unfold PagesOk; rw [e, e2]
  refine ⟨Mem.wf_nil _, ?_, ?_⟩
  · rw [hl]; exact List.pairwise_lt_range
  · rw [List.flatMap_nil, List.append_nil, hl]
theorem pagesOk_cleared (m : Lma) : PagesOk { m with free := List.range 256, regions := [] } := by
  generalize hl : List.range 256 = l
  exact pagesOk_blank _ l hl.symm (by rfl) (by rfl)

/-- A delay line step keeps the canonical form of line memory (R29). -/
theorem wf_lineStep (pages : List Nat) (mem : Mem Int) (base len q : Nat) (x d g : Int) (h : Mem.Wf 0 mem) :
    Mem.Wf 0 (lineStep pages mem base len q x d g).mem := Mem.wf_set _ _ h

/-- A delay line step writes one sample and no other (R29). -/
theorem get_lineStep_ne (pages : List Nat) (mem : Mem Int) (base len q : Nat) (x d g : Int) (a : Nat)
    (h : a ≠ regionAddr pages (base + q)) : Mem.get 0 (lineStep pages mem base len q x d g).mem a = Mem.get 0 mem a :=
  Mem.get_set_ne 0 mem _ h

/-- At the midpoint of a dip the incoming chain and all the tails admitted go on fitting the budget (R146). -/
theorem offerWithin_fits (incoming : Nat) (bid : BufId) (e : State × Nat) (i : Nat) (h : incoming + e.2 ≤ 2048) :
    incoming + (offerWithin incoming bid e i).2 ≤ 2048 := by
  unfold offerWithin
  split
  · exact h
  · dsimp only
    split_ifs <;> first | exact h | omega

/-- The same after any number of slots. -/
theorem offerWithin_foldl_fits (incoming : Nat) (bid : BufId) (l : List Nat) (e : State × Nat) (h : incoming + e.2 ≤ 2048) :
    incoming + (l.foldl (offerWithin incoming bid) e).2 ≤ 2048 := by
  induction l generalizing e with
  | nil => exact h
  | cons i l ih => exact ih _ (offerWithin_fits incoming bid e i h)

end Sys2Proof.Machine
end

