-- ==== Sys2Proof/Laws/Slots.lean ====
section
/-! SUPPORT. Buffers and slots: what a change of one slot can do, said once. -/

namespace Sys2Proof.Machine

/-- Changing one element depends only on what the change does to that element. -/
theorem modAt_congr {α} (l : List α) (i : Nat) (f g : α → α) (x : α) (h : l[i]? = some x) (e : f x = g x) : modAt l i f = modAt l i g := by
  induction l generalizing i with
  | nil => rfl
  | cons a t ih =>
    cases i with
    | zero => simp at h; subst h; simp [modAt, e]
    | succ n => simp at h; simp [modAt, ih n h]

/-- What stands in a list after one of its elements is changed. -/
theorem getElem?_modAt {α} (l : List α) (i j : Nat) (f : α → α) : (modAt l i f)[j]? = if j = i then (l[j]?).map f else l[j]? := by
  induction l generalizing i j with
  | nil => simp [modAt]
  | cons a t ih =>
    cases i with
    | zero => cases j <;> simp [modAt]
    | succ n =>
      cases j with
      | zero => simp [modAt]
      | succ m => simp [modAt, ih]
@[simp] theorem length_modAt {α} (l : List α) (i : Nat) (f : α → α) : (modAt l i f).length = l.length := by
  induction l generalizing i with
  | nil => rfl
  | cons a t ih => cases i <;> simp [modAt, ih]

/-- Changing a slot depends only on what the change does to that slot. -/
theorem modSlot_congr (bid : BufId) (i) (f g : Slot → Slot) (s : State) (sl : Slot) (h : slotAt s bid i = some sl) (e : f sl = g sl) :
    modSlot bid i f s = modSlot bid i g s := by
  cases bid <;> simp only [modSlot, modChain, modBuf, slotAt, buf] at * <;> rw [modAt_congr _ i f g sl h e]
@[simp] theorem buf_modBuf (bid f) (s : State) : buf (modBuf bid f s) bid = f (buf s bid) := by cases bid <;> rfl
@[simp] theorem buf_modBuf_other (bid f) (s : State) : buf (modBuf bid f s) (otherBuf bid) = buf s (otherBuf bid) := by cases bid <;> rfl

/-- What a slot reads after one slot of its buffer is changed. -/
theorem slotAt_modSlot (bid i f) (s : State) (j) : slotAt (modSlot bid i f s) bid j = if j = i then (slotAt s bid j).map f else slotAt s bid j := by
  simp [slotAt, modSlot, modChain, getElem?_modAt]
@[simp] theorem regionLen_eq (m : Lma) (id) : regionLen m id = 1024 * (regionPages m id).length := rfl

/-! ## Mix and bypass (R50) -/

@[simp] theorem moveMix_bypass (len : Nat) (sl : Slot) : (moveMix len sl).bypass = sl.bypass := rfl
@[simp] theorem moveMix_run (len : Nat) (sl : Slot) : (moveMix len sl).run = sl.run := rfl
@[simp] theorem moveMix_mixStored (len : Nat) (sl : Slot) : (moveMix len sl).mixStored = sl.mixStored := rfl
@[simp] theorem moveMix_engage (len : Nat) (sl : Slot) : (moveMix len sl).engage = sl.engage := rfl

/-- A change of a C-class parameter writes its running value, and besides it can move the slot's voice and store a mix, nothing
else; only a slot that is not ENGAGED stores a mix. -/
theorem moveParam_frame (beat granted i : Nat) (v : Int) (len : Nat) (sl : Slot) :
    let y := moveParam beat granted i v len sl
    y = { sl with run := sl.run.set i v, voice := y.voice, mixStored := y.mixStored } ∧
      (y.mixStored = sl.mixStored ∨ y.mixStored = true ∧ sl.bypass ≠ .engaged ∧ y.voice = sl.voice) := by
  cases hk : sl.kind <;> cases hb : sl.bypass <;> rcases i with _ | _ | _ | _ | i <;>
    simp only [moveParam, setRun, moveA, moveB, moveMix, hk, hb] <;> (try split) <;> simp_all

/-- An engage from BYPASSED: the engage ramp is restarted, the stored mix is used up, and the mix gains move only where one was
stored (R50). -/
theorem engageSlot_bypassed (sl : Slot) (h : sl.bypass = .bypassed) : engageSlot sl =
    { sl with
      bypass := .engaged, mixStored := false, engage := sl.engage.restart unity 256
      voice := if sl.mixStored then { sl.voice with
        dry := sl.voice.dry.restart (dryGain (runMix sl)) 256, wet := sl.voice.wet.restart (wetGain (runMix sl)) 256 }
        else sl.voice } := by
  cases hm : sl.mixStored <;> simp [engageSlot, h, hm, moveMix, runMix]

/-- After an engage the slot is ENGAGED with its running values as they were, and no stored mix waits unless it was ENGAGED
before. -/
theorem engageSlot_engaged (sl : Slot) : (engageSlot sl).bypass = .engaged ∧ (engageSlot sl).run = sl.run ∧
    (sl.bypass ≠ .engaged → (engageSlot sl).mixStored = false) := by
  cases h : sl.bypass <;> cases hm : sl.mixStored <;> simp [engageSlot, h, hm]

/-! ## The controller map (R56, R57) -/

/-- The n-th slot of a kind is the slot of that kind with n of them up to and with it. -/
theorem nthOfKind_eq_some {k : Kind} {n i j : Nat} {l : List Slot} :
    nthOfKind k n i l = some j ↔ ∃ r sl, j = i + r ∧ l[r]? = some sl ∧ sl.kind = k ∧
      n = ((l.take (r + 1)).filter (fun u => decide (u.kind = k))).length := by
  induction l generalizing n i with
  | nil => simp [nthOfKind]
  | cons a t ih =>
    have take : ∀ m, (((a :: t).take (m + 1)).filter (fun u => decide (u.kind = k))).length =
        (if a.kind = k then 1 else 0) + ((t.take m).filter (fun u => decide (u.kind = k))).length := by
      intro m
      by_cases h : a.kind = k <;> simp [List.take_succ_cons, h]
      omega
    simp only [nthOfKind, take]
    by_cases hk : a.kind = k
    · simp only [hk, if_true]
      by_cases hn : n = 1
      · subst hn
        simp only [if_true, Option.some.injEq]
        constructor
        · rintro rfl; exact ⟨0, a, rfl, rfl, hk, by simp⟩
        · rintro ⟨r, sl, rfl, hr, hs, he⟩
          cases r with
          | zero => rfl
          | succ r =>
            simp only [List.getElem?_cons_succ] at hr
            have h1 : sl ∈ (t.take (r + 1)).filter (fun u => decide (u.kind = k)) := by
              simp only [List.mem_filter, decide_eq_true_eq]
              refine ⟨List.mem_iff_getElem?.2 ⟨r, ?_⟩, hs⟩
              rw [List.getElem?_take]; simp [hr]
            have h2 := List.length_pos_of_mem h1
            omega
      · simp only [hn, if_false]
        rw [ih]
        constructor
        · rintro ⟨r, sl, rfl, hr, hs, he⟩
          refine ⟨r + 1, sl, by omega, by simpa using hr, hs, ?_⟩
          have h1 : sl ∈ (t.take (r + 1)).filter (fun u => decide (u.kind = k)) := by
            simp only [List.mem_filter, decide_eq_true_eq]
            refine ⟨List.mem_iff_getElem?.2 ⟨r, ?_⟩, hs⟩
            rw [List.getElem?_take]; simp [hr]
          have h2 := List.length_pos_of_mem h1
          omega
        · rintro ⟨r, sl, rfl, hr, hs, he⟩
          cases r with
          | zero => simp at he; exact absurd he hn
          | succ r =>
            refine ⟨r, sl, by omega, by simpa using hr, hs, ?_⟩
            omega
    · simp only [hk, if_false]
      rw [ih]
      constructor
      · rintro ⟨r, sl, rfl, hr, hs, he⟩
        exact ⟨r + 1, sl, by omega, by simpa using hr, hs, by simpa [hk] using he⟩
      · rintro ⟨r, sl, rfl, hr, hs, he⟩
        cases r with
        | zero => simp at hr; subst hr; exact absurd hs hk
        | succ r => exact ⟨r, sl, by omega, by simpa using hr, hs, by simpa [hk] using he⟩

/-- The live entries, written over the indexes. -/
theorem liveEntries_eq (t : Tne) : liveEntries t = (List.range 8).filterMap (fun q =>
    (Mem.get none t.ctrlMap q).bind (fun e => (Mem.get none t.sources e.source.key).map (fun v => (e, v)))) := by
  unfold liveEntries
  congr 1
  funext i
  cases Mem.get none t.ctrlMap i <;> rfl

/-- An entry finds a slot of its kind that is the occurrence it names. -/
theorem MapEntry.hits_iff (e : MapEntry) (slots : List Slot) (slot i : Nat) (sl : Slot) (h : slots[slot]? = some sl) :
    e.hits slots slot i = true ↔ e.kind = sl.kind ∧ e.param = i ∧
      e.occ = ((slots.take (slot + 1)).filter (fun u => decide (u.kind = sl.kind))).length := by
  simp only [MapEntry.hits, Bool.and_eq_true, beq_iff_eq, nthOfKind_eq_some]
  constructor
  · rintro ⟨hp, r, x, hr, hx, hk, ho⟩
    have : r = slot := by omega
    subst this
    rw [h] at hx; cases hx
    exact ⟨hk.symm, hp, by rw [ho, hk]⟩
  · rintro ⟨hk, hp, ho⟩
    exact ⟨hp, slot, sl, by omega, h, hk.symm, by rw [ho, hk]⟩

/-- The value the map gives is that of its last live entry that finds the parameter. -/
theorem mapHolds_eq_some (t : Tne) (slots : List Slot) (slot i : Nat) (x : Int) :
    mapHolds t slots slot i = some x ↔ ∃ q e v, q < 8 ∧ Mem.get none t.ctrlMap q = some e ∧ Mem.get none t.sources e.source.key = some v ∧
      e.hits slots slot i = true ∧ x = e.value v ∧
      ∀ q' e' v', q < q' → q' < 8 → Mem.get none t.ctrlMap q' = some e' → Mem.get none t.sources e'.source.key = some v' →
        e'.hits slots slot i = false := by
  unfold mapHolds
  rw [liveEntries_eq, findLast_filterMap]
  simp only [Option.map_eq_some_iff, Option.bind_eq_some_iff]
  constructor
  · rintro ⟨⟨e, v⟩, ⟨q, hq, hl⟩, rfl⟩
    obtain ⟨e', he, v', hv, heq⟩ := hl
    cases heq
    obtain ⟨a, b, hab, hp, hb⟩ := findLast_eq_some.1 hq
    have hlt : q < 8 := by
      have : q ∈ List.range 8 := by rw [hab]; simp
      simpa using this
    refine ⟨q, e, v, hlt, he, hv, ?_, rfl, ?_⟩
    · simpa [he, hv] using hp
    · intro q' e' v' h1 h2 he' hv'
      have hq' : q' ∈ b := by
        have hm : q' ∈ List.range 8 := by simpa using h2
        rw [hab] at hm
        have hs : (a ++ q :: b).Pairwise (· < ·) := by rw [← hab]; decide
        rw [List.pairwise_append] at hs
        simp only [List.mem_append, List.mem_cons] at hm
        rcases hm with hm | hm | hm
        · have := hs.2.2 q' hm q (by simp); omega
        · omega
        · exact hm
      simpa [he', hv'] using hb q' hq'
  · rintro ⟨q, e, v, hlt, he, hv, hh, rfl, hlast⟩
    refine ⟨(e, v), ⟨q, ?_, e, he, v, hv, rfl⟩, rfl⟩
    rw [findLast_eq_some]
    refine ⟨List.range q, (List.range' (q + 1) (7 - q)), ?_, by simpa [he, hv] using hh, ?_⟩
    · have : q = 0 ∨ q = 1 ∨ q = 2 ∨ q = 3 ∨ q = 4 ∨ q = 5 ∨ q = 6 ∨ q = 7 := by omega
      rcases this with rfl | rfl | rfl | rfl | rfl | rfl | rfl | rfl <;> decide
    · intro u hu
      rw [List.mem_range'_1] at hu
      cases he' : Mem.get none t.ctrlMap u with
      | none => simp
      | some e' =>
        cases hv' : Mem.get none t.sources e'.source.key with
        | none => simp [hv']
        | some v' => simpa [hv'] using hlast u e' v' (by omega) (by omega) he' hv'

end Sys2Proof.Machine
end

