-- ==== Sys2Proof/Laws/Switches.lean ====
section
/-! SUPPORT. Firing the records of the binding table: what it can do, said once. -/

namespace Sys2Proof.Machine

/-- Steps that each change nothing change nothing. -/
theorem foldl_unchanged {α} (l : List α) (f : State → α → State) (s : State) (h : ∀ x ∈ l, f s x = s) : l.foldl f s = s := by
  induction l with
  | nil => rfl
  | cons a t ih => simp [h a (by simp)]; exact ih (fun x hx => h x (by simp [hx]))

/-- A trigger that no record names fires nothing (R124). -/
theorem fire_nothing (hits) (c) (s : State) (h : ∀ i, i < 64 → hits (bindingAt s i).trigger = false) : fire hits c s = s := by
  unfold fire; simp only []; show List.foldl _ _ _ = _
  apply foldl_unchanged; intro i hi; simp at hi; simp [h i hi]

/-- The indexes 0..63 around one of them. -/
theorem range_split (i : Nat) (h : i < 64) : List.range 64 = List.range i ++ i :: (List.range (63 - i)).map (fun k => i + 1 + k) := by
  apply List.ext_getElem
  · simp; omega
  · intro n h1 h2
    simp only [List.getElem_range]
    by_cases a : n < i
    · rw [List.getElem_append_left (by simpa using a)]; simp
    · rw [List.getElem_append_right (by simp; omega)]
      by_cases c : n = i
      · simp [c]
      · simp only [List.length_range]
        rw [List.getElem_cons]; split
        · omega
        · simp; omega

/-- A trigger that one record names carries out that record (R124). -/
theorem fire_single (hits) (c) (s t : State) (i) (hi : i < 64) (h : ∀ j, j < 64 → j ≠ i → hits (bindingAt s j).trigger = false)
   (hh : hits (bindingAt s i).trigger = true) (hc : (bindingAt s i).cond = none) (ht : fireRecord i (bindingAt s i) c s = t)
   (hb : ∀ j, bindingAt t j = bindingAt s j) : fire hits c s = t := by
  unfold fire; simp only []; show List.foldl _ _ _ = _; rw [range_split i hi, List.foldl_append, List.foldl_cons]
  rw [foldl_unchanged (List.range i)]
  · simp only [hh, hc, condHolds, ht, Bool.and_self, if_true]
    apply foldl_unchanged; intro k hk; simp at hk; obtain ⟨k', hk', rfl⟩ := hk
    simp [hb, h _ (show i + 1 + k' < 64 by omega) (show i + 1 + k' ≠ i by omega)]
  · intro k hk; simp at hk; simp [h k (by omega) (by omega)]

/-- A switch without a HOLD record. -/
theorem hasHold_iff (s : State) (k) : hasHold s k = true ↔ ¬ ∀ i, i < 64 → namesSwitch k .hold (bindingAt s i).trigger = false := by
  simp [hasHold]

end Sys2Proof.Machine
end

