-- ==== Sys2Proof/Laws/Tempo.lean ====
section
/-! SUPPORT. The tempo in use: what bringing it into line can do, said once (R101, R110, R112). -/

namespace Sys2Proof.Machine

theorem clampNat_eq (lo hi x : Nat) (h : lo ≤ hi) : clampNat lo hi x = max lo (min hi x) := by
  unfold clampNat
  split
  · omega
  · split <;> omega

theorem clampDelay_eq (len : Nat) (d : Int) : clampDelay len d = max 1 (min ((len : Int) - 1) d) := by
  unfold clampDelay clampInt
  omega

/-- The synced lengths of R110's table. -/
theorem syncLength_eq (beat : Nat) (c : Int) : syncLength beat c =
    if c = 1 then (beat : Int) else if c = 2 then (beat : Int) * 3 / 4 else if c = 3 then (beat : Int) / 2
    else if c = 4 then (beat : Int) / 3 else if c = 5 then (beat : Int) / 4 else (beat : Int) * 2 := by
  unfold syncLength
  split <;> simp_all

/-- What the beat-length notice does at one slot. -/
theorem noticeSlot_eq (l : Lma) (beat : Nat) (sl : Slot) : noticeSlot l beat sl =
    if sl.kind = .delay ∧ 1 ≤ sl.run.getD 1 0 ∧ sl.run.getD 1 0 ≤ 6 ∧ sl.stub = false then
      { sl with voice := { sl.voice with a :=
        { v := sl.voice.a.v
          target := max 1 (min (1024 * ((regionPages l sl.voice.region).length : Int) - 1) (syncLength beat (sl.run.getD 1 0)))
          count := 512 } } }
    else sl := by
  unfold noticeSlot
  by_cases h : sl.kind = .delay ∧ 1 ≤ sl.run.getD 1 0 ∧ sl.run.getD 1 0 ≤ 6 ∧ sl.stub = false
  · have h0 : sl.run.getD 1 0 ≠ 0 := by omega
    rw [if_pos h, if_pos ⟨h.1, ⟨h.2.1, h.2.2.1⟩, h.2.2.2⟩]
    unfold moveA delayTarget delayAsked
    rw [if_neg h0, clampDelay_eq]
    simp [Ramp.restart, regionLen]
  · rw [if_neg h, if_neg (fun x => h ⟨x.1, x.2.1.1, x.2.1.2, x.2.2⟩)]

@[simp] theorem beatNotice_lkc (s : State) : (beatNotice s).lkc = s.lkc := rfl
@[simp] theorem beatNotice_tmp (s : State) : (beatNotice s).tmp = s.tmp := rfl

/-- Posting a report if there is one changes the link part alone. -/
theorem postSome_frame (r : Option Report) (s : State) : postSome r s = { s with lkc := (postSome r s).lkc } := by
  cases r with
  | none => rfl
  | some r => exact post_frame r s

/-- The link part after a post depends on the link part before it alone. -/
theorem post_lkc_congr (r : Report) {s t : State} (h : s.lkc = t.lkc) : (post r s).lkc = (post r t).lkc := by
  have step : ∀ (l : Link) (s t : State), s.lkc = t.lkc → (postIf l r s).lkc = (postIf l r t).lkc := by
    intro l s t h
    unfold postIf
    cases r.cls with
    | none => exact h
    | some c =>
      have hio : io s l = io t l := by cases l <;> simp [io, h]
      simp only [hio]
      split
      · cases l <;> simp [postOn, modIo, h]
      · exact h
  exact step .foot _ _ (step .main _ _ h)

/-- The tempo and beat length that the source and the follower choose are those of R101's table. -/
theorem inUse_aligned (m : Tmp) (due : Bool) : InUse { m with tempo := m.tempoInUse, beat := m.beatInUse, beatDue := due } := by
  simp only [InUse, Tmp.tempoInUse, Tmp.beatInUse, Tmp.source, Tmp.isLocked, tempoOf, clampTempo, perBeat]
  exact ⟨fun h => by simp [h], fun h h' => by simp [h, h', clampNat_eq], fun h h' => by simp [h, h']⟩

/-- What a post that may follow leaves alone. -/
theorem postSome_tmp (r : Option Report) (s : State) : (postSome r s).tmp = s.tmp := by rw [postSome_frame]

theorem postSome_tne (r : Option Report) (s : State) : (postSome r s).tne = s.tne := by rw [postSome_frame]

/-- The tempo unit after the tempo in use is brought into line. -/
theorem alignTempo_tmp (told : Nat → Option Report) (s : State) : (alignTempo told s).tmp = { s.tmp with
    tempo := s.tmp.tempoInUse, beat := s.tmp.beatInUse, beatDue := s.tmp.beatDue && !s.tmp.withheld } := by
  unfold alignTempo
  dsimp only
  split <;> split <;> simp only [post_tmp, postSome_tmp, beatNotice_tmp, withTmp]

/-- The engine after the tempo in use is brought into line: the notice of R110, where the beat length changed. -/
theorem alignTempo_tne (told : Nat → Option Report) (s : State) : (alignTempo told s).tne =
    if s.tmp.beatInUse = s.tmp.beat then s.tne else { s.tne with
      bufA := noticeBuffer s.lma s.tmp.beatInUse s.tne.bufA, bufB := noticeBuffer s.lma s.tmp.beatInUse s.tne.bufB } := by
  unfold alignTempo
  dsimp only
  split <;> split <;> simp only [post_tne, postSome_tne, beatNotice, withTmp]

/-- The reports posted as the tempo in use is brought into line. -/
theorem alignTempo_lkc (told : Nat → Option Report) (s : State) : (alignTempo told s).lkc =
    (let v := postSome (told s.tmp.tempoInUse) s
     if s.tmp.tempoInUse = s.tmp.tempo then v else post (.tempoValue s.tmp.tempoInUse s.tmp.beatInUse s.tmp.source) v).lkc := by
  have some_congr : ∀ (r : Option Report) {u v : State}, u.lkc = v.lkc → (postSome r u).lkc = (postSome r v).lkc := by
    intro r u v h
    cases r with
    | none => exact h
    | some r => exact post_lkc_congr r h
  unfold alignTempo
  dsimp only
  by_cases ht : s.tmp.tempoInUse = s.tmp.tempo
  · rw [if_pos ht, if_pos ht]
    split <;> exact some_congr _ rfl
  · rw [if_neg ht, if_neg ht]
    split <;> exact post_lkc_congr _ (some_congr _ rfl)

/-- Bringing the tempo in use into line, from a state that stood with the same engine, lines, links, tempo and beat length in use. -/
theorem alignTempo_paced (told : Nat → Option Report) {s s' : State} (hn : s'.tne = s.tne) (hm : s'.lma = s.lma) (hl : s'.lkc = s.lkc)
    (ht : s'.tmp.tempo = s.tmp.tempo) (hb : s'.tmp.beat = s.tmp.beat) :
    Paced (told (alignTempo told s').tmp.tempo) s (alignTempo told s') := by
  unfold Paced
  dsimp only
  rw [alignTempo_tne, alignTempo_lkc, alignTempo_tmp]
  refine ⟨inUse_aligned _ _, ?_, ?_⟩
  · rw [hn, hm, hb]
    have slots : noticeSlot s.lma s'.tmp.beatInUse = _ := funext (noticeSlot_eq s.lma s'.tmp.beatInUse)
    simp only [noticeBuffer, slots, syncLength_eq]
  · have before : (postSome (told s'.tmp.tempoInUse) s').lkc =
        (match told s'.tmp.tempoInUse with | some r => post r s | none => s).lkc := by
      cases told s'.tmp.tempoInUse with
      | none => exact hl
      | some r => exact post_lkc_congr r hl
    have source : s'.tmp.source = if s'.tmp.midiSource = false then .internal
        else if s'.tmp.follower.state = .locked then .midi else .held := by
      simp [Tmp.source, Tmp.isLocked]
    rw [ht, source]
    split
    · exact before
    · exact post_lkc_congr _ before

end Sys2Proof.Machine
end

