-- ==== Sys2Proof/Tests/Slice0.lean ====
section
/-! SUPPORT. Tests: ill-formed commands are refused, the worked examples of the manual, and for every statement with
hypotheses states and operands that meet them. -/

namespace Sys2Proof.Tests

set_option Elab.async false

open Sys2Proof Sys2Proof.Machine

/-! ## Helpers -/

/-- The state right after reset. -/
def r0 : State := State.reset

/-- A state with the audio clock RUNNING and the mute sets and conditions of the clock withdrawn. -/
def run0 : State := { r0 with aup := { clock := .running, noEdgeTimer := true } }

/-- A frame of the main link. -/
def m (p : List Byte) : Frame := ⟨.main, 7, p⟩

/-- A frame of the foot link. -/
def ft (p : List Byte) : Frame := ⟨.foot, 7, p⟩

/-- The next state of a command. -/
def next (c : Instr) (s : State) : State :=
  match exec c s with
  | .next t => t
  | .fault _ => s
  | .refused _ => s

/-- A reset state with the Tempo Unit changed. -/
def withT (t : Tmp) (s : State) : State := { s with tmp := t }

/-- The code and the data of the newest reply of the main link. -/
def reply (s : State) : Option (Code × ReplyData) :=
  match s.lkc.main.entries.getLast? with
  | some e => e.reply.map (fun p => (p.code, p.data))
  | none => none

/-! ## Ill-formed commands -/

theorem test_wf_frame_too_long : Instr.wellFormed (.tap (m (List.replicate 249 0))) = false := by decide +kernel
theorem test_wf_frame_spells : Instr.wellFormed (.switchPress (m [3, 1])) = false := by decide
theorem test_wf_samples : Instr.wellFormed (.samplePeriod [0, 0, 0]) = false := by decide
theorem test_wf_word_clock_len : Instr.wellFormed (.wordClockPeriod 0 (List.replicate 8 0)) = false := by decide
theorem test_wf_lane : Instr.wellFormed (.silentEntry 9) = false ∧ Instr.wellFormed (.silentEntry 0) = false := by decide
theorem test_wf_slot : Instr.wellFormed (.gateClose .a 12) = false := by decide
theorem test_wf_table :
    Instr.wellFormed (.tableChangeBoundary (.curve 16)) = false ∧ Instr.wellFormed (.tableChangeBoundary (.filterSet 32)) = false := by
  decide
theorem test_wf_place : Instr.wellFormed (.remnantFreed 4) = false := by decide
theorem test_wf_switch : Instr.wellFormed (.holdTimerExpiry 24) = false := by decide
theorem test_wf_channel : Instr.wellFormed (.programChange 17 0) = false := by decide
theorem test_wf_data : Instr.wellFormed (.controlChange 1 128 0) = false := by decide
theorem test_wf_unknown_kind : Instr.wellFormed (.unknownKind 0x10 (m [])) = false := by decide
theorem test_wf_frame_error : Instr.wellFormed (.frameError .main []) = false := by decide

/-! ## Worked examples: arithmetic (2.8) -/

/-- 2.8.1: 3,000,000 at gain 24,576 saturates. -/
theorem test_gain_saturates : gainProduct 3000000 24576 = ⟨8388607, true⟩ := by decide
/-- 2.8.1: halves go up. -/
theorem test_gain_halves :
    (gainProduct 1 4096).y = 1 ∧ (gainProduct (-1) 4096).y = 0 ∧ (gainProduct 3 4096).y = 2 ∧ (gainProduct (-3) 4096).y = -1 := by
  decide
/-- 2.8.3: one rounding. -/
theorem test_mix_rounds_once : mixAcc [(3, 4096), (3, 4096)] = ⟨3, false⟩ := by decide
/-- 2.8.4: the output bus during a crossfade. -/
theorem test_mix_bus :
    mixAcc [(2000000, 6144), (-1000000, 2048), (500000, 8192), (300000, 4096)] = ⟨1900000, false⟩ ∧
    (gainProduct 1900000 4915).y = 1139954 := by decide
/-- 2.8.5: the second sample of a biquad section. -/
theorem test_biquad : (biquad ⟨8192, 8192, 0, -8192, 0⟩ ⟨1000000, 0, 500000, 0⟩ 1000000).1 = ⟨1250000, false⟩ := by decide
/-- 2.8.6: the line holds 60,000 at index 1,768, which is page 42, offset 744; 130,000 is written at page 17, offset 200. -/
theorem test_delay_line :
    let t := lineStep [17, 42] [(1024 * 42 + 744, 60000)] 0 2048 200 100000 480 4096
    t.r = 60000 ∧ Mem.get 0 t.mem (1024 * 17 + 200) = 130000 ∧ t.pos = 201 := by decide
/-- 2.8.7: a ramp of length 5. -/
theorem test_ramp : (Ramp.advance ((Ramp.at 8192).restart 0 5)) = ⟨6554, 0, 4⟩ ∧ (⟨3278, 0, 2⟩ : Ramp).advance = ⟨1639, 0, 1⟩ := by
  decide
/-- 3.11.3: a control change of 64 gives the source value 515. -/
theorem test_cc_value : Mem.get none (next (.controlChange 1 7 64) r0).tne.sources 7 = some 515 := by decide +kernel
/-- 3.11.1: the cost and the pages of the chain. -/
theorem test_chain_cost :
    slotsCost ([Kind.gate, .drive, .amp, .cab, .eq, .mod, .delay, .reverb, .level].map (fun k => { kind := k })) = 1012 ∧
    pagesAsked .delay [0, 0, 1200] = 57 := by decide

/-! ## Worked examples: tuner and tempo -/

/-- 5.8.2: a span of 55,602 is 8 cents above A2 (note 21); at reference 4320, 40 cents. -/
theorem test_span_a2 : spanResult 4400 55602 = some (21, 8) ∧ spanResult 4320 55602 = some (21, 40) := by decide +kernel
/-- 5.8.2: 204,000 is C1, 50 cents flat. -/
theorem test_span_c1 : spanResult 4400 204000 = some (0, -50) := by decide +kernel
/-- 5.8.1: the time of a crossing between samples 1,000 and 1,001. -/
theorem test_crossing : crossingTime 1001 (-120000) 40000 = 16012 := by decide
/-- 5.8.3: the shown cents after the fourth row. -/
theorem test_lock_shown : lockStep 4 (some (16, -8)) (.locked 16 (-10) []) = .locked 16 (-9) [true] := by decide
/-- 5.8.3: the second MISS in a full window ends the lock. -/
theorem test_lock_lost : lockStep 4 (some (21, 3)) (.locked 16 (-6) [true, false, true, true]) = .search := by decide
/-- 6.6.1: beat lengths. -/
theorem test_beats : perBeat 400 = 72000 ∧ perBeat 1195 = 24100 ∧ perBeat 1333 = 21605 ∧ perBeat 3000 = 9600 := by decide
/-- 6.6.2: the tap at 148,050. -/
theorem test_tap_mean :
    let s := next (.tap (m [])) (withT { sampleNo := 148050, lastTap := some 124100, intervals := [24100] } run0)
    s.tmp.internal = 1199 ∧ s.tmp.beat = 24020 ∧ s.tmp.intervals = [24100, 23950] := by decide
/-- 6.6.2: a bounce is dropped. -/
theorem test_tap_bounce :
    (next (.tap (m [])) (withT { sampleNo := 150000, lastTap := some 148050, intervals := [24100, 23950] } run0)).tmp.lastTap =
      some 148050 := by decide
/-- 6.6.3: the byte at 548,010 locks. -/
theorem test_follower_locks :
    let f : Follower := { state := .search, start := some 524000, count := 24, m1 := some 24000, timer := true }
    let s := next .followerMeasurement (withT { midiSource := true, sampleNo := 548010, follower := f } run0)
    s.tmp.follower.state = .locked ∧ s.tmp.follower.b = 24010 ∧ s.tmp.tempo = 1200 ∧ s.swc.flags = 0x80 := by decide
/-- 6.6.3: the second deviant ends the lock, with the held beat 24,005. -/
theorem test_follower_unlocks :
    let f : Follower := { state := .locked, start := some 597500, count := 24, b := 24005, history := [false, true], timer := true }
    let s := next .followerMeasurement
      (withT { midiSource := true, sampleNo := 623000, beat := 24005, follower := f } run0)
    s.tmp.follower.state = .search ∧ s.tmp.follower.m1 = some 25500 ∧ s.tmp.heldBeat = 24005 ∧ s.tmp.beat = 24005 := by decide

/-! ## Worked examples: the other chapters -/

/-- 1.9.3: the second LANE request reaches output lane 2 in its dip. -/
theorem test_lane_two_changes :
    let s := next (.lane (m [1, 2, 2, 1])) r0
    (outLane s 2).gain = ⟨8192, 0, 64⟩ ∧ (outLane s 2).dip = .down ∧
    let s := next (.lane (m [1, 2, 0x21, 0x10, 0, 2])) s
    (outLane s 2).pendSource = some .tone ∧ (outLane s 2).cfg.trim = 4096 ∧ (outLane s 2).source = .engine := by decide
/-- 7.10.2: the shift switch. -/
theorem test_shift_switch :
    let b : Mem Binding :=
      [(31, { trigger := .foot 5 .press, cond := some (0, true), action := .flag .clear 1 }),
       (33, { trigger := .foot 6 .press, action := .flag .toggle 1 })]
    let s := next (.switchPress (ft [6, 0])) { r0 with swc := { bindings := b } }
    s.swc.flags = 1 ∧ (next (.switchPress (ft [5, 0])) s).swc.flags = 0 := by decide +kernel
/-- 7.10.4: bytes 177, 0, 1 select bank 1 and give CC 0 the source value 8. -/
theorem test_midi_bank :
    let s : State := { r0 with swc := { channel := some 2 } }
    let s := next (.midiStatusByte 1) (next (.midiStatusByte 0) (next (.midiStatusByte 177) s))
    s.swc.bankSelect = 1 ∧ Mem.get none s.tne.sources 0 = some 8 ∧ s.swc.running = some 177 := by decide +kernel
/-- 11.9: the third frame brings the foot link UP, and its TAKE is granted. -/
theorem test_foot_comes_up :
    let s : State := { r0 with lkc := { footPermit := true, footRun := 2, footTimer := true } }
    let s := next (.editOwnerTake (ft [0])) s
    s.lkc.footUp = true ∧ s.lkc.owner = .foot := by decide
/-- 11.9: the main link displaces a FOOT owner. -/
theorem test_foot_displaced :
    let s : State := { r0 with lkc := { footPermit := true, footUp := true, footRun := 3, footTimer := true, owner := .foot } }
    let s := next (.editOwnerTake (m [0])) s
    s.lkc.owner = .main ∧ s.lkc.foot.tx = some (.report (.owner .main .displaced)) := by decide
/-- 10.7.1: the scene's set joins the next set while the window settles. -/
theorem test_window_next_set :
    let s : State := { r0 with acd := {
      requested := ⟨2, 2⟩, switched := ⟨2, 2⟩, drive := true, window := some { phase := .settle, settle := 72 } } }
    let t := (handRelaySet ⟨0x12, 2⟩ s).1
    t.acd.next.changes.loopMask = 0x10 ∧ t.acd.next.changes.loops = 0x10 ∧ t.acd.switched = ⟨2, 2⟩ ∧ t.acd.next.owed = [0] := by decide
/-- 10.7.3: manual bypass mutes first. -/
theorem test_bypass_on :
    let s : State := { r0 with
      tne := { mute := {}, muteRamp := Ramp.at 8192 }
      acd := { conds := ⟨false, false, false, false, false⟩, relay := .circuit } }
    let s := next (.bypass (m [0])) s
    s.acd.relay = .muting ∧ s.tne.muteRamp = ⟨8192, 0, 256⟩ ∧ s.tne.mute.bypass = true := by decide
/-- 9.11.1: a record of 412 bytes does not fit in the 296 bytes left: the lowest ERASED sector becomes OPEN. -/
theorem test_place_fresh :
    let p : Pst := { sectors := [(0, ⟨.full, 0, 4096, 4096⟩), (7, ⟨.opened, 3500, 300, 3800⟩)] }
    let q := place 412 p
    q.2 = some (1, 0) ∧ sector q.1 7 = ⟨.full, 3500, 596, 4096⟩ := by decide
/-- 9.11.2: of the FULL sectors with the most dead bytes the lowest-numbered is the victim. -/
theorem test_victim :
    pickVictim { sectors := [(3, ⟨.full, 2520, 1576, 4096⟩), (9, ⟨.full, 1892, 2204, 4096⟩), (15, ⟨.full, 1892, 2204, 4096⟩)] } =
      some 9 := by decide
/-- 2.8.7 and R61: a fresh pool gives the lowest pages (4.9.1). -/
theorem test_grant_low : (grantRegion (.slot .a 5) 2 {}).2.free.take 2 = [2, 3] := by decide
/-- R201: the largest image is 355 bytes. -/
theorem test_image_length :
    let sl : Slot := { kind := .delay, params := [0, 0, 0, 0, 0, 0] }
    let sc : Scene := { overrides := List.replicate 8 ⟨0, 0, 0⟩ }
    (presetImage { slots := List.replicate 12 sl, scenes := List.replicate 4 sc } []).length = 356 := by decide +kernel
/-- R50's row for BYPASSED: a mix ramp begun before the bypass goes on over its own samples through the engage; a mix of 1000 that
arrives while BYPASSED is taken up by the engage, toward 8000 wet and 184 dry. -/
theorem test_engage_mix :
    let sl : Slot := { kind := .reverb, run := [0, 512, 0], voice := { dry := ⟨0, 4088, 5000⟩, wet := ⟨8184, 4096, 5000⟩ } }
    let back := engageSlot (bypassSlot sl)
    let stored := engageSlot (moveParam 24000 0 1 1000 512 (bypassSlot sl))
    back.voice = sl.voice ∧ back.bypass = .engaged ∧ back.engage.target = 8192 ∧
    stored.voice.wet = ⟨8184, 8000, 256⟩ ∧ stored.voice.dry = ⟨0, 184, 256⟩ ∧ stored.mixStored = false := by decide
/-- R175 and R55: a stored occurrence outside 1..4 is clamped and the entry stays; a source, kind or parameter that is none of
those listed empties it. CTRL_MAP refuses the same occurrence. -/
theorem test_stored_map_entry :
    let field := fun (src cc kind occ par : Byte) => parseMapField [src, cc, kind, occ, par, 0, 0, 3, 255] 0
    (field 1 0 11 0 0).1 = some ⟨.p0, .level, 1, 0, 0, 1023⟩ ∧ field 1 0 11 255 0 = (some ⟨.p0, .level, 4, 0, 0, 1023⟩, 1) ∧
    (field 1 0 11 4 0).2 = 0 ∧ field 4 0 11 1 0 = (none, 1) ∧ field 3 120 11 1 0 = (none, 1) ∧ field 1 0 12 1 0 = (none, 1) ∧
    field 1 0 11 1 1 = (none, 1) ∧ parseMapEntry [1, 0, 11, 5, 0, 0, 0, 3, 255] 0 = none := by decide

/-- R149 and log 78: the boot preset is the byte at offset 184 of the body, and 0 of a record too short to hold it, whatever lies behind it. -/
theorem test_boot_preset :
    let boot := fun n : Nat => bootOf { flash := [(200, 7), (204, 9)], dir := [(256, some ⟨0, 0, 1, n⟩)] }
    boot 204 = 7 ∧ boot 200 = 0 ∧ bootOf {} = 0 := by decide +kernel

/-! ## Witnesses: states and operands that meet the hypotheses of the statements, clause by clause -/

/-- The main link's reply queue is full. -/
def full : State := { r0 with lkc := { main := { entries := List.replicate 16 ⟨0, 0, false, none⟩, subs := 0x3F } } }

/-- The foot link is UP and permitted. -/
def footUp : State := { r0 with lkc := { footPermit := true, footUp := true, footRun := 3, footTimer := true } }

/-- A state with an edit owner. -/
def owned (o : EditOwner) (s : State) : State := { s with lkc := { s.lkc with owner := o } }

/-- Each condition of an invariant statement, with a step that has a next state. -/
theorem witness_StepKeepsFootOwner :
    FootOwnerOk (owned .foot footUp) ∧ FootRunOk (owned .foot footUp) ∧ ∃ t, step (owned .foot footUp) = .next t :=
  ⟨by unfold FootOwnerOk; decide, by unfold FootRunOk; decide, _, rfl⟩

theorem witness_StepKeepsBypassRelay :
    let s : State := { r0 with acd := { conds := ⟨false, false, false, true, false⟩, relay := .muting, manual := true } }
    RelayOk s.acd ∧ ManualOk s.acd ∧ ∃ t, step s = .next t :=
  ⟨⟨rfl, rfl⟩, rfl, _, rfl⟩

theorem witness_StepKeepsFlashForm :
    let s : State := { r0 with pst := { flash := [(0, 0xFC), (262143, 0)], sectors := [(0, ⟨.opened, 0, 0, 32⟩), (63, ⟨.full, 0, 4096, 4096⟩)] } }
    FlashOk s.pst ∧ SectorsOk s.pst ∧ ∃ t, step s = .next t :=
  ⟨by unfold FlashOk Mem.Wf; decide, by unfold SectorsOk Mem.Wf; decide, _, rfl⟩

theorem witness_StepKeepsLinePages :
    let s : State := { r0 with lma := { free := (List.range 256).drop 1, regions := [(3, some ⟨.tail 0, [0]⟩)] } }
    PagesOk s.lma ∧ ∃ t, step s = .next t :=
  ⟨⟨by unfold Mem.Wf; decide, by decide +kernel, by decide +kernel⟩, _, rfl⟩

theorem witness_ResetsKeepFlashBytes :
    (let s : State := { r0 with pst := { op := some (.read .job ⟨0, 0, 1, 52⟩) } }
     s.pst.suspended = none ∧ s.pst.op = some (.read .job ⟨0, 0, 1, 52⟩)) ∧
    (let s : State := { r0 with pst := { op := some (.program 262140 [0, 1, 2, 3]) } }
     s.pst.op = some (.program 262140 [0, 1, 2, 3]) ∧ (262139 < 262140 ∨ 262140 + 4 ≤ 262139)) ∧
    (let s : State := { r0 with pst := { op := some (.erase 63), flash := [(262143, 0)] } }
     s.pst.op = some (.erase 63) ∧ (4096 * 63 - 1) / 4096 ≠ 63 ∧ FlashOk s.pst) ∧
    (∀ op ∈ [none, some (FlashOp.read .copy ⟨0, 0, 1, 52⟩)],
      let s : State := { r0 with pst := { suspended := some 63, op := op, flash := [(262143, 0)] } }
      s.pst.suspended = some 63 ∧ (s.pst.op = none ∨ s.pst.op = some (.read .copy ⟨0, 0, 1, 52⟩)) ∧ FlashOk s.pst) := by
  unfold FlashOk Mem.Wf; decide

theorem witness_FrameAcceptanceSteps :
    (requestFrame (.tap (m [])) = some (0x07, m []) ∧ requestFrame (.restart (ft [])) = some (0x43, ft [])) ∧
    ¬Room .main full ∧
    (Room .main r0 ∧ kindOfRequest (0x80 : Byte).toNat = none) ∧
    (kindOfRequest (0x07 : Byte).toNat = some (formTap, doTap) ∧ formTap.fits [0] = false) ∧
    (kindOfRequest (0x43 : Byte).toNat = some (formRestart, doRestart) ∧ formRestart.fits [] = true ∧ (ft []).link = .foot) ∧
    (kindOfRequest (0x24 : Byte).toNat = some (formSetLock, doSetLock) ∧ formSetLock.fits [0, 0, 0, 0] = true ∧
      r0.lkc.footPermit = false) ∧
    (kindOfRequest (0x10 : Byte).toNat = some (formSetParam, doSetParam) ∧ formSetParam.fits [0, 0, 0, 0] = true ∧
      (owned .main footUp).lkc.footPermit = true ∧ (owned .main footUp).lkc.owner ≠ .none ∧
      (owned .main footUp).lkc.owner ≠ ownerOf .foot) ∧
    (MayEdit .foot (owned .foot footUp) ∧ MayEdit .main r0) := by
  refine ⟨⟨rfl, rfl⟩, ?_, ⟨?_, rfl⟩, ⟨rfl, rfl⟩, ⟨rfl, rfl, rfl⟩, ⟨rfl, rfl, rfl⟩, ⟨rfl, rfl, rfl, ?_, ?_⟩, ?_, ?_⟩ <;>
    first | (unfold Room; decide) | (unfold MayEdit; decide) | decide

/-- DOWN with the timer stopped, running with 1 and with 2 frames, and UP. -/
theorem witness_FramesArriveOrFail :
    (footUp.lkc.footUp = true) ∧ (r0.lkc.footUp = false ∧ r0.lkc.footTimer = false) ∧
    (∀ n ∈ [1, 2], let s : State := { r0 with lkc := { footRun := n, footTimer := true } }
      s.lkc.footUp = false ∧ s.lkc.footTimer = true ∧ s.lkc.footRun = n ∧ s.lkc.main.subscribed .system = true) := by decide

/-- Answered with nothing else there, with an older entry DONE and unsent, and while a report is sent. -/
theorem witness_RepliesAndFramesGoOut_answer :
    ∀ tx ∈ [none, some (TxFrame.report .tapIgnored)], ∀ old ∈ [none, some (⟨3, .ok, 0, .none⟩ : Reply)],
      let e : ReplyEntry := ⟨4, 9, false, none⟩
      let x : ReplyEntry := ⟨2, 9, false, old⟩
      let s : State := { r0 with lkc := { main := { entries := [x, e], nextId := 5, nextSeq := 4, subs := 0, tx := tx, reports := [.tapIgnored] } } }
      e ∈ (io s .main).entries ∧ e.id = (⟨.main, 4⟩ : Dest).id ∧ e.reply = none ∧ (io s .main).tx = tx ∧
      (old = none → ∀ y ∈ (io s .main).entries, y.reply = none) ∧ (∀ y ∈ (io s .main).entries, y.id = 4 → y = e) := by decide

/-- A state whose main transmitter sends `tx`, with reports waiting and drops counted. -/
def sending (tx : TxFrame) (reports : List Report) (drops : Nat) (entries : List ReplyEntry) : State :=
  { r0 with lkc := { main := { tx := some tx, reports := reports, drops := drops, entries := entries, subs := 0x3F } } }

theorem witness_RepliesAndFramesGoOut :
    (io (sending (.report .tapIgnored) [] 0 []) .main).sending = some [0xA5, 1, 0x81, 0, 0x22, 0x5C] ∧
    (∃ b, (io (sending (.report (.linkState true)) [] 0 []) .main).sending = some b) ∧
    (∀ more ∈ [true, false], ((io (sending (.reply 2 more) [] 0 [⟨2, 9, false, some ⟨5, .ok, 0, .bytes (List.replicate 246 0)⟩⟩])
      .main).sending).isSome = true) ∧
    (⟨5, .ok, 0, .bytes (List.replicate 246 0)⟩ : Reply).data.long = true ∧
    (io (sending (.reply 1 true) [] 0 []) .main).tx = some (.reply 1 true) ∧
    (io r0 .main).tx = none := ⟨by decide, ⟨_, rfl⟩, by decide +kernel, by decide +kernel, by decide, rfl⟩

/-- What goes next after the last frame of a reply and after a report: with an entry DONE, and with none DONE and no report, one report at the
bounds of the drops, and three. -/
theorem witness_RepliesAndFramesGoOut_next :
    ∀ tx ∈ [TxFrame.reply 1 false, .report .tapIgnored], ∀ done ∈ [none, some (⟨5, .ok, 0, .none⟩ : Reply)],
      ∀ l ∈ [([] : List Report), [.tapIgnored], [.tapIgnored, .linkState true, .linkState false]], ∀ n ∈ [0, 255],
      let s := sending tx l n [⟨1, 8, true, some ⟨4, .ok, 0, .none⟩⟩, ⟨2, 9, false, done⟩]
      let left := (io s .main).entries.filter (fun e => e.id ≠ 1)
      (io s .main).tx = some tx ∧ (io s .main).reports = l ∧ (io s .main).drops = n ∧
      (left.any (fun e => decide (e.reply ≠ none)) = true ↔ done ≠ none) ∧
      (io (sending tx l n [⟨2, 9, false, done⟩]) .main).entries.any (fun e => decide (e.reply ≠ none)) = decide (done ≠ none) := by decide

theorem witness_EditOwnershipMoves :
    (∀ s ∈ [r0, owned .main r0, owned .foot footUp, footUp], Room .main s ∧ Room .foot s) ∧
    (r0.lkc.owner = .none ∧ (owned .main r0).lkc.owner = .main ∧ (owned .foot footUp).lkc.owner = .foot) ∧
    (r0.lkc.footPermit = false) ∧
    (∀ o ∈ [EditOwner.none, .main, .foot], (owned o footUp).lkc.footPermit = true ∧
      (arrived (ft [0]) (owned o footUp)).lkc.footUp = true) ∧
    ((owned .foot footUp).lkc.owner = ownerOf (ft [1]).link ∧ r0.lkc.owner ≠ ownerOf (m [1]).link) := by
  unfold Room; decide +kernel

theorem witness_EditOwnershipMoves_permit :
    Room .main r0 ∧ Room .main (owned .foot footUp) ∧ (m [0]).link = .main ∧ r0.lkc.owner ≠ .foot ∧
    (owned .foot footUp).lkc.owner = .foot ∧ 1 < (2 : Byte).toNat := by unfold Room; decide

theorem witness_EditOwnershipMoves_timer :
    (let s : State := { r0 with lkc := { footRun := 2, footTimer := true } }
     s.lkc.footTimer = true ∧ s.lkc.footUp = false) ∧
    (footUp.lkc.footTimer = true ∧ footUp.lkc.footUp = true ∧ footUp.lkc.owner ≠ .foot) ∧
    ((owned .foot footUp).lkc.footTimer = true ∧ (owned .foot footUp).lkc.footUp = true ∧ (owned .foot footUp).lkc.owner = .foot) := by
  decide

/-- No buffer ACTIVE, and each of the two alone, with the channel selected by the mode and by the chain's input. -/
theorem witness_LinkRequestsAnswer_status :
    (∀ bid : BufId, (buf r0 bid).state ≠ .active) ∧
    (∀ bid ∈ [BufId.a, .b], ∀ input ∈ [InputSel.lane1, .lane2, .sum], ∀ sel ∈ [TuneChannel.t1, .t2, .follow],
      let s : State := modBuf bid (fun _ => { state := .active, chain := { input := input } }) { r0 with tun := { mode := { channel := sel } } }
      (buf s bid).state = .active ∧ (buf s (otherBuf bid)).state ≠ .active ∧ (buf s bid).chain.input = input ∧ s.tun.mode.channel = sel) := by
  refine ⟨fun bid => ?_, by decide⟩
  cases bid <;> decide

theorem witness_LinkRequestsAnswer :
    Room .main r0 ∧ Room .foot r0 ∧ (63 : Byte).toNat < 64 ∧ 64 ≤ (64 : Byte).toNat ∧ (9 : Byte).toNat ≤ 9 ∧
    9 < (10 : Byte).toNat ∧ (m []).link = .main ∧ (ft []).link = .foot := by unfold Room; decide

theorem witness_CounterBankCounts :
    Room .main r0 ∧ r0.lkc.sampleMode = false ∧
    (let s : State := { r0 with lkc := { sampleMode := true, counters := [(21, 65535)] } }
     Room .main s ∧ s.lkc.sampleMode = true ∧ Mem.get 0 s.lkc.counters 21 = 65535) ∧ 1 < (2 : Byte).toNat := by unfold Room; decide

theorem witness_FramesArriveOrFail_errors :
    receiver r0 .main = .hunt ∧ receiver r0 .foot = .hunt ∧
    ((List.replicate 248 (0 : Byte)).length ≤ 248 ∧ frameSum ([b8 248, 7, 1] ++ List.replicate 248 0 ++ [1]) ≠ 0) ∧
    248 < (249 : Byte).toNat ∧ (248 : Byte).toNat ≤ 248 ∧ (0xA4 : Byte) ≠ 0xA5 ∧
    (∀ held ∈ [([] : List Byte), [248], [248, 0xFF]], held.length ≤ 2 ∧ (held.headD 0).toNat ≤ 248) ∧
    (∀ p ∈ [([] : List Byte), List.replicate 248 0], p.length ≤ (248 : Byte).toNat) := by decide +kernel

theorem witness_RestartEffectClears :
    (let s : State := { r0 with lkc := { restartDue := 1 } }
     0 < s.lkc.restartDue ∧ s.pst.scanning = true) ∧
    (let s : State := { r0 with lkc := { restartDue := 2 }, pst := { scanning := false } }
     0 < s.lkc.restartDue ∧ s.pst.scanning = false ∧ entry s.pst 256 = none ∧ entry s.pst 0 = none) ∧
    (let s : State := { r0 with lkc := { restartDue := 1 }, pst := { scanning := false, dir := [(255, some ⟨0, 1024, 2, 52⟩), (256, some ⟨0, 0, 1, 1024⟩)] } }
     (Mem.get 0xFF s.pst.flash (4096 * 0 + 0 + 200)).toNat = 255 ∧ entry s.pst 256 = some ⟨0, 0, 1, 1024⟩ ∧
     entry s.pst 255 = some ⟨0, 1024, 2, 52⟩ ∧ s.pst.op = none ∧ s.pst.reads = [] ∧ 200 < (1024 : Nat)) ∧
    (∀ n ∈ [200, 201], let s : State := { r0 with
       lkc := { restartDue := 1 }, pst := { scanning := false, dir := [(0, some ⟨0, 1024, 2, 52⟩), (255, some ⟨0, 2048, 3, 52⟩), (256, some ⟨0, 0, 1, n⟩)] } }
     0 < s.lkc.restartDue ∧ entry s.pst 256 = some ⟨0, 0, 1, n⟩ ∧ (n ≤ 200 ↔ n = 200) ∧
     (Mem.get 0xFF s.pst.flash (4096 * 0 + 0 + 200)).toNat = 255 ∧ entry s.pst 0 = some ⟨0, 1024, 2, 52⟩ ∧
     entry s.pst 255 = some ⟨0, 2048, 3, 52⟩) := by decide

/-- A recall in flight with a SCENE joined to it, one pending and two items waiting, on both links, as RESTART takes effect: the four requests
that came from the links are answered SUPERSEDED, the scene of a binding has no reply, and the relay drops out of circuit. -/
theorem witness_RestartEffectClears_answers :
    let q : LinkIo := { entries := [{ id := 0, tag := 1 }, { id := 1, tag := 2 }], reports := [.tapIgnored], drops := 255, subs := 0x3F }
    let r : Recall := { preset := 1, scene := 0, origin := .link .main 1, dest := some ⟨.main, 0⟩ }
    let s : State := { run0 with
      lkc := { restartDue := 1, main := q, foot := q }
      rcu := { state := .loading, flight := some { r with joined := some ⟨some ⟨.foot, 0⟩, 0⟩ }, pending := some { r with dest := some ⟨.main, 1⟩ },
               waiting := [.scene 1 (.binding 0) none, .sceneOnly { r with dest := some ⟨.foot, 1⟩ }] }
      acd := { relay := .circuit, conds := ⟨false, false, false, false, false⟩ } }
    0 < s.lkc.restartDue ∧ (next .restartEffect s).acd.relay = .out ∧
    (∀ l ∈ [Link.main, .foot], (io (next .restartEffect s) l).entries.map (fun e => e.reply.map (·.code)) =
      [some .superseded, some .superseded]) := by decide +kernel

theorem witness_SupplyMonitorMoves :
    (∀ g ∈ [false, true], let s : State := { r0 with acd := { supply := .between, supplyGood := g } }
      s.acd.supply ≠ .below ∧ s.acd.supplyGood = g ∧ s.acd.supply ≠ .above) ∧
    (let s : State := { r0 with acd := { supply := .above, stability := true } }
     s.acd.supply = .above ∧ s.acd.stability = true ∧ s.acd.window = none) ∧
    (∀ p ∈ [WindowPhase.down, .settle, .up], ∀ restoring ∈ [false, true],
      let w : Window := { phase := p, restoration := restoring }
      let s : State := { r0 with acd := { supply := .above, stability := true, window := some w } }
      s.acd.stability = true ∧ s.acd.window = some w ∧ w.phase = p) ∧
    (∀ p ∈ [RelayPhase.out, .circuit, .muting], ∀ manual ∈ [false, true], let c : Conds := ⟨false, false, true, manual, false⟩
      let s : State := { r0 with acd := { supply := .above, stability := true, relay := p, conds := c, manual := manual } }
      s.acd.relay = p ∧ ({ s.acd.conds with supplyLow := false } : Conds).any = manual) ∧
    r0.acd.stability = false := by decide

theorem witness_WindowSwitchesRelays :
    (let w : Window := { phase := .settle, settle := 240 }
     let s : State := { r0 with acd := { window := some w } }
     s.acd.window = some w ∧ w.phase = .settle ∧ w.settle = 240) ∧
    (∀ p ∈ [WindowPhase.down, .up], ∀ next ∈ [({} : NextSet), { restoration := true, owed := [7] }], ∀ waits ∈ [false, true],
      let w : Window := { phase := p, owed := [6] }
      let s : State := { r0 with
        aup := { relayOwed := true, relayMute := Ramp.at 0 }, acd := { window := some w, next := next }
        rcu := { state := if waits then .relays else .idle, ticket := 6 } }
      s.aup.relayOwed = true ∧ s.aup.relayMute.count = 0 ∧ s.acd.window = some w ∧ w.phase = p ∧ s.acd.next.holds = next.restoration ∧
        (s.rcu.state = .relays ∧ s.rcu.fadeDue = false ∧ s.rcu.ticket ∈ w.owed ↔ waits = true)) ∧
    (let s : State := { r0 with acd := { switched := ⟨0x80, 8⟩ } }
     s.acd.window = none ∧ s.acd.next = {} ∧ (0x80 : BitVec 8) = s.acd.switched.loops ∧ (0x81 : BitVec 8) ≠ s.acd.switched.loops) ∧
    (∀ p ∈ [WindowPhase.down, .settle, .up],
      let w : Window := { phase := p, pending := if p = .down then { loopMask := 0x80, loops := 0x80 } else {} }
      let s : State := { r0 with acd := { window := some w } }
      s.acd.window = some w ∧ s.acd.next = {} ∧ s.acd.next.holds = false ∧ w.phase = p ∧
      (waitingLoops s.acd = if p = .down then 0x80 else 0)) ∧
    (let s : State := { r0 with acd := { window := some { phase := .up }, next := { changes := { loopMask := 1, loops := 1 } } } }
     s.acd.next.holds = true ∧ waitingLoops s.acd = 1) := by decide

/-- A build whose last request is granted: no new set, one of amp lines alone, one with a loop relay, quantized and not. -/
theorem witness_WindowSwitchesRelays_build :
    ∀ relays ∈ [none, some (⟨0, 0⟩ : RelaySet), some ⟨0, 8⟩, some ⟨0x80, 0⟩], ∀ q ∈ [false, true],
      let r : Recall := { preset := 0, scene := 0, quant := some q, origin := .boot }
      let s : State := { r0 with
        tne := { bufA := { state := .loading, chain := { slots := [{ kind := .mod }], relays := relays } } }
        lma := { requests := some [⟨0, 2⟩] }
        rcu := { state := .loading, flight := some r } }
      let c := (buf s s.rcu.build).chain
      s.lma.requests = some [⟨0, 2⟩] ∧ 2 ≤ s.lma.free.length ∧ ((c.scenes.getD c.scene {}).relays).or c.relays = relays ∧ quantized s = q ∧
      s.acd.requested = ⟨0, 0⟩ ∧
      (∀ x, relays = some x → ((handRelaySet x s).2.2 = true ↔ x.loops = 0)) := by decide +kernel

theorem witness_BypassOperatesManualFlag :
    (Room .main r0 ∧ (2 : Byte).toNat ≤ 2 ∧ 2 < (3 : Byte).toNat) ∧
    (∀ manual ∈ [false, true], ∀ relay ∈ [RelayPhase.circuit, .muting, .out], ∀ other ∈ [false, true],
      let s : State := { r0 with acd := { manual := manual, relay := relay, conds := ⟨other, false, false, manual, false⟩ } }
      Room .main s ∧ s.acd.manual = manual ∧ s.acd.relay = relay ∧ s.acd.conds.other = other ∧ s.tne.mute.bypass = false) := by
  unfold Room; decide

theorem witness_RampSectionAndLineStep_ramp : let r : Ramp := ⟨8192, 0, 5⟩
    ((0 ≤ 0 ∧ (0 : Nat) = 0) ∧ (3 ≤ 3 ∧ 0 < 3) ∧ ((0 : Int) ≠ r.v ∧ 0 < r.count)) ∧ (1 ≤ 256 ∧ 0 < 256 ∧ (8192 : Int) = r.v) := by decide

theorem witness_GainProductRule :
    (-8388608 : Int) ≤ -8388608 ∧ (-8388608 : Int) ≤ 8388607 ∧ (8388607 : Int) ≤ 8388607 ∧ (0 : Int) ≤ 32767 ∧ (32767 : Int) ≤ 32767 ∧
    (0 : Int) ≤ 8192 ∧ (8192 : Int) ≤ 32767 ∧ (gainProduct 8388607 8193).clip = true ∧ (gainProduct (-8388608) 8192).clip = false ∧
    (gainProduct 12345 0).clip = false := by decide

/-- A slot of each kind, running and THRU, at the least and at the greatest quiet count of a gate. -/
theorem witness_RampSectionAndLineStep :
    ({ kind := .delay, stub := true, voice := { dry := Ramp.at 8192 } } : Slot).stub = true ∧
    (∀ k ∈ [Kind.trim, .gate, .drive, .amp, .cab, .eq, .mod, .delay, .reverb, .loop, .level], ∀ thru ∈ [false, true],
      let sl : Slot := { kind := k, thru := thru }
      sl.stub = false ∧ sl.thru = thru ∧ sl.kind = k) ∧
    (let sl : Slot := { kind := .gate, thru := false, voice := { a := Ramp.at 100 } }
     sl.voice.a.advance.v ≤ ((-100 : Int).natAbs : Int) ∧ ((-99 : Int).natAbs : Int) < sl.voice.a.advance.v) ∧
    (slotStep {} {} 5 [] { kind := .loop, thru := false } 1).send ≠ none ∧
    (slotStep {} {} 5 [] { kind := .trim, thru := false } 1).send = none := by decide

/-- The first and last phases of each quarter of the tone table, and the least and the greatest length of a DELAY. -/
theorem witness_TablesOfTheEngine :
    (∀ x ∈ [(0, 0), (0x40FFFFFF, 64), (0x80FFFFFF, 128), (0xC0FFFFFF, 192), (0xFFFFFFFF, 255)], (BitVec.ofNat 32 x.1 : Phase).toNat / 16777216 = x.2) ∧
    (∀ ms ∈ [(1 : Int), 5000], 1 ≤ ([0, 0, ms] : List Int).getD 2 0) := by decide

/-- SETTLING one period before it is over. -/
def settling (n : Nat) : State := { r0 with aup := { clock := .settling, settle := n, noEdgeTimer := true } }

theorem witness_ClockMonitorMoves_table :
    r0.aup.clock = .absent ∧
    ((settling 4799).aup.clock = .settling ∧ (settling 4799).aup.settle < 4800 ∧ 320 ≤ 320 ∧ 347 ≤ 347 ∧
      (319 < 320 ∨ 347 < 319) ∧ (348 < 320 ∨ 347 < 348)) ∧
    (run0.aup.clock = .running ∧ settleAll run0 = run0) := by decide +kernel

theorem witness_ClockMonitorMoves :
    (∀ relay ∈ [RelayPhase.circuit, .muting, .out], let s : State := { run0 with acd := { relay := relay } }
      s.aup.clock = .running ∧ s.tne.mute.clock = false ∧ s.aup.noEdgeTimer = true ∧ s.acd.relay = relay) ∧
    (319 < 320 ∨ 347 < 319) ∧ (348 < 320 ∨ 347 < 348) ∧ ((settling 0).aup.noEdgeTimer = true ∧ (settling 0).aup.clock = .settling) := by decide

theorem witness_ClockRunningFinishesMovements :
    ((settling 4800).aup.clock = .settling ∧ (settling 4800).aup.settle = 4800 ∧ (settling 4800).rcu.state ≠ .fading ∧
      (settling 4800).lma.requests = none ∧ (settling 4800).acd.window = none) ∧
    (let s : State := { settling 4800 with
       lma := { free := (List.range 256).drop 2, mem := [(5, 7), (1030, 7)], regions := [(0, some ⟨.slot .a 0, [0]⟩), (3, some ⟨.tail 0, [1]⟩)] } }
     Mem.Wf none s.lma.regions ∧ Mem.get none s.lma.regions 0 = some ⟨.slot .a 0, [0]⟩ ∧ (Owner.slot .a 0).ofTail = false ∧ 5 / 1024 ∈ [0] ∧
     Mem.get none s.lma.regions 3 = some ⟨.tail 0, [1]⟩ ∧ (Owner.tail 0).ofTail = true ∧ 1030 / 1024 ∉ [0]) ∧
    (∀ p ∈ [WindowPhase.down, .settle, .up],
      let s : State := { settling 4800 with acd := { window := some { phase := p } } }
      s.acd.window = some { phase := p } ∧ s.acd.next.holds = false) ∧
    (let s : State := { settling 4800 with lma := { requests := some (List.replicate 12 ⟨0, 256⟩) }, rcu := { state := .loading } }
     s.rcu.state ≠ .fading ∧ s.lma.requests = some (List.replicate 12 ⟨0, 256⟩) ∧ (List.replicate 12 (⟨0, 256⟩ : PageReq)).length ≤ 12) ∧
    (∀ swapped ∈ [false, true],
      let r : Recall := { preset := 0, scene := 0, origin := .boot }
      let s : State := { settling 4800 with
        tne := { bufA := { state := if swapped then .outgoing else .active }, bufB := { state := if swapped then .active else .ready } }
        rcu := { state := .fading, flight := some r, build := .b, swapped := swapped } }
      s.rcu.state = .fading ∧ s.rcu.flight = some r ∧ s.rcu.pending = none ∧ s.rcu.joinedDue = false ∧ s.lma.requests = none ∧
      (s.rcu.swapped = true ∧ (buf s .b).state = .active ∧ (buf s .a).state = .outgoing ∨
        s.rcu.swapped = false ∧ (buf s .b).state = .ready ∧ (buf s .a).state = .active)) := by unfold Mem.Wf; decide

/-- Nothing due with no buffer, with one chain processed, with two, and with a tail of a stub, one without and a remnant beside a chain. -/
theorem witness_SamplePeriodAdvances :
    (run0.aup.clock = .running ∧ settleAll run0 = run0 ∧ (inLane run0 1).loopback = 0 ∧ activeBuf run0 = none ∧ outgoingBuf run0 = none ∧
      run0.tne.tails = [] ∧ remnantList run0.tne = []) ∧
    (let s : State := { run0 with
       aup := { run0.aup with inLanes := [(3, { loopback := 5, cfg := { loopback := 5 } })] }
       tne := { run0.tne with blockPos := 31, bufA := { state := .active, chain := { slots := [{ kind := .loop }, { kind := .level }], fade := Ramp.at 8192 } } } }
     settleAll s = s ∧ (inLane s 3).loopback = 5 ∧ activeBuf s = some .a ∧ outgoingBuf s = none) ∧
    (let s : State := { run0 with
       tne := { run0.tne with
         bufA := { state := .active, chain := { fade := ⟨0, 8192, 64⟩ } }, bufB := { state := .outgoing, chain := { fade := ⟨8192, 0, 64⟩ } } }
       rcu := { state := .fading, flight := some { preset := 0, scene := 0, origin := .boot }, swapped := true } }
     settleAll s = s ∧ activeBuf s = some .a ∧ outgoingBuf s = some .b) ∧
    (let t1 : Tail := { index := 0, preset := 0, kind := .delay, voice := { region := some 0, wet := Ramp.at 8192 }, hold := 1, phase := .ringing, source := some (.a, 1) }
     let t2 : Tail := { t1 with index := 1, source := none, voice := { wet := Ramp.at 8192 } }
     let s : State := { run0 with
       tne := { run0.tne with
         blockPos := 1, tails := [t1, t2], remnants := [(3, some { kind := .reverb, voice := { wet := ⟨5, 0, 2⟩ } })]
         bufA := { state := .active, chain := { slots := [{ kind := .level }, { kind := .delay, stub := true }], fade := Ramp.at 8192 } } }
       lma := { free := (List.range 256).drop 1, regions := [(0, some ⟨.tail 0, [0]⟩)] } }
     settleAll s = s ∧ s.tne.tails = [t1, t2] ∧ activeBuf s = some .a ∧ (buf s .a).chain.slots.length = 2 ∧ t1.phase = .ringing ∧
     Mem.get none s.tne.remnants 3 = some { kind := .reverb, voice := { wet := ⟨5, 0, 2⟩ } }) := by decide +kernel

/-- An input lane and an output lane in a phase of a dip, with the ramp at rest. -/
def dipping (p : DipPhase) : State := modOutLane 8 (fun l => { l with dip := p }) (modInLane 1 (fun l => { l with dip := p }) r0)

theorem witness_LaneMovements_dips :
    (∀ p ∈ [DipPhase.down, .up], (inLane (dipping p) 1).dip = p ∧ (inLane (dipping p) 1).gain.count = 0 ∧
      (outLane (dipping p) 8).dip = p ∧ (outLane (dipping p) 8).gain.count = 0) ∧ (2 : Nat) ≠ 1 := by decide

/-- A sample on channels whose lanes are SILENT or not, with the threshold given. -/
def hearing (c : Channel) (silent : Bool) (h : Nat) : State :=
  forAll [1, 2, 3] (fun k => modInLane k (fun l => { l with silence := ⟨silent, 0⟩, cfg := { l.cfg with threshold := h } }))
    { run0 with tun := { run0.tun with t1 := c, t2 := c } }

/-- The bounds of each clause: the arming level and the crossing level, no record, a record at its counts 6 and 7, a raw sample at twice the
threshold and one below it. -/
theorem witness_SampleMovesDetectors :
    (∀ silent ∈ [false, true], let s := hearing { y := -1, yPrev := -1, armed := true, record := some (3, 7) } silent 5
      s.aup.clock = .running ∧ settleAll s = s ∧ (inLane s 1).loopback = 0 ∧ (inLane s 1).silence.silent = silent ∧
      (chan s .t1).record = some (3, 7) ∧ (chan s .t1).armed = true ∧ (∀ j < 16, Mem.get 0 s.lkc.counters j < 65535)) ∧
    (0 ≤ (-1 : Int) + (15 - -1) / 16 ∧ ¬ (0 ≤ (-1 : Int) + (14 - -1) / 16)) ∧
    ((-32768 : Int) + (-32769 - -32768) / 16 < -32768 ∧ ¬ ((-32768 : Int) + (-32768 - -32768) / 16 < -32768)) ∧
    (2 * 5 ≤ (-10 : Int).natAbs ∧ ¬ (2 * 5 ≤ (9 : Int).natAbs)) ∧
    ((hearing { record := none } false 0).tun.t1.record = none ∧ (hearing { record := some (3, 6) } false 0).tun.t1.record = some (3, 6) ∧ 6 < 7) := by
  decide +kernel

theorem witness_SampleMovesDetectors_silent :
    (∀ k ∈ [1, 2, 3, 8], (inLane (modInLane k (fun l => { l with silence := ⟨false, 4800⟩ }) r0) k).silence = ⟨false, 4800⟩ ∧
      (2 < k ∨ k = laneOf .t1 ∨ k = laneOf .t2)) ∧
    (let s : State := { r0 with tun := { t2 := { lock := .locked 71 (-50) [true] } } }
     (chan s .t2).lock = .locked 71 (-50) [true] ∧ (chan s .t1).lock = .search) := by decide

/-- The payloads of the rule's form: every field of an input and of an output lane, lanes 1 and 8, trims at and past 32,767, and each ground
of BAD_FIELD (direction, lane, presence byte, polarity, mute, loopback, source, and a field that the direction does not have). -/
theorem witness_LaneRequestWritesRecord :
    (Room .main r0 ∧ MayEdit .main r0) ∧
    (let form := fun (dir lane mask t₁ t₀ pol mute h₁ h₀ loop src : Byte) =>
       [dir, lane, mask] ++ (if mask.getLsbD 0 then [t₁, t₀] else []) ++ (if mask.getLsbD 1 then [pol] else []) ++
       (if mask.getLsbD 2 then [mute] else []) ++ (if mask.getLsbD 3 then [h₁, h₀] else []) ++ (if mask.getLsbD 4 then [loop] else []) ++
       (if mask.getLsbD 5 then [src] else [])
     form 0 8 0x1F 0x80 0 1 1 0x20 0 8 0 = [0, 8, 0x1F, 0x80, 0, 1, 1, 0x20, 0, 8] ∧
     form 1 1 0x27 0x7F 0xFF 0 1 0 0 0 3 = [1, 1, 0x27, 0x7F, 0xFF, 0, 1, 3] ∧
     form 0 9 1 0 0 0 0 0 0 0 0 = [0, 9, 1, 0, 0] ∧ form 2 1 0 0 0 0 0 0 0 0 0 = [2, 1, 0] ∧ form 0 0 0x40 0 0 0 0 0 0 0 0 = [0, 0, 0x40] ∧
     form 0 1 0x20 0 0 0 0 0 0 0 0 = [0, 1, 0x20, 0] ∧ form 1 1 0x18 0 0 0 0 0 1 8 0 = [1, 1, 0x18, 0, 1, 8] ∧
     form 0 1 0x16 0 0 2 2 0 0 9 0 = [0, 1, 0x16, 2, 2, 9] ∧ form 1 1 0x20 0 0 0 0 0 0 0 4 = [1, 1, 0x20, 4]) ∧
    (32767 < 256 * (0x80 : Byte).toNat + (0 : Byte).toNat ∧ ¬32767 < 256 * (0x7F : Byte).toNat + (0xFF : Byte).toNat) ∧
    (next (.lane (m [0, 8, 0x1F, 0x80, 0, 1, 1, 0x20, 0, 8])) r0).aup.inLanes ≠ r0.aup.inLanes ∧
    (next (.lane (m [1, 1, 0x27, 0x7F, 0xFF, 0, 1, 3])) r0).aup.outLanes ≠ r0.aup.outLanes ∧
    (∀ p ∈ [([0, 9, 1, 0, 0] : List Byte), [2, 1, 0], [0, 0, 0x40], [0, 1, 0x20, 0], [1, 1, 0x18, 0, 1, 8], [0, 1, 0x16, 2, 2, 9], [1, 1, 0x20, 4]],
      reply (next (.lane (m p)) r0) = some (.badField, .none)) := by
  unfold Room MayEdit; decide +kernel

theorem witness_LaneMovements :
    (let l : InLane := {}
     l.dip = .none ∧ l.pendInverted = none ∧ l.pendLoopback = none ∧ l.inverted = l.cfg.inverted ∧ l.loopback = l.cfg.loopback ∧
     l.gain.target = l.target ∧
     (let c : InRec := { trim := 32767 }
      c.inverted = l.cfg.inverted ∧ c.loopback = l.cfg.loopback) ∧
     (let c : InRec := { inverted := true, loopback := 8 }
      c.inverted ≠ l.cfg.inverted ∧ c.loopback ≠ l.cfg.loopback)) ∧
    (∀ d ∈ [DipPhase.down, .up], let l : InLane := { dip := d, gain := ⟨1, 0, 1⟩ }
      l.dip = d ∧ 0 < l.gain.count ∧ l.pendInverted = none ∧ l.pendLoopback = none) ∧
    (∀ d ∈ [DipPhase.none, .down], let l : OutLane := { dip := d, inverted := true, source := .zero }
      l.dip = d ∧ l.pendInverted = none ∧ l.pendSource = none ∧ (true = true ∧ 4 ≤ 4) ∧ (Source.dry ≠ l.source)) ∧
    (∀ n ∈ [0, 1], let l : OutLane := { dip := .up, gain := ⟨1, 8192, n⟩ }
      l.dip = .up ∧ (0 < l.gain.count ↔ n = 1) ∧ (l.gain.count = 0 ↔ n = 0) ∧ l.pendInverted = none ∧ l.pendSource = none ∧
      (let c : OutRec := { source := l.source, inverted := l.inverted, trim := 0 }
       c.inverted = l.inverted ∧ c.source = l.source) ∧
      (let c : OutRec := { inverted := !l.inverted, source := .zero }
       c.inverted ≠ l.inverted ∧ c.source ≠ l.source)) ∧
    (let l : InLane := { dip := .up }
     l.dip = .up ∧ l.gain.count = 0) ∧
    (∀ on ∈ [false, true], let s : State := { r0 with aup := { override := on, outLanes := [(4, { dip := .up })] } }
      Room .main s ∧ s.aup.override = on ∧ (outLane s 1).pendSource = none ∧ (outLane s 4).dip ≠ .down ∧ (outLane s 4).pendSource = none) ∧
    ((2 : Byte).toNat ≤ 2 ∧ (1 : Byte).toNat ≤ 1) := by unfold Room; decide
/-! ### Tone Engine -/

/-- Buffer A ACTIVE with a chain of the slots given, the clock RUNNING at a block boundary. -/
def playing (slots : List Slot) : State :=
  { run0 with tne := { run0.tne with bufA := { state := .active, chain := { slots := slots } }, boundaryDue := true } }

/-- A scene there is and one there is not; a parameter that two entries of the controller map find, one that an override sets twice and one
that neither touches. -/
theorem witness_ChainSetUp :
    let t : Tne := { ctrlMap := [(1, some ⟨.cc 7, .delay, 1, 4, 0, 1023⟩), (7, some ⟨.p1, .delay, 1, 4, 1023, 0⟩)], sources := [(7, some 0), (121, some 1023)] }
    let sl : Slot := { kind := .delay, params := [5000, 6, 20, 1023, 0, 20000], voice := { region := some 0 } }
    let c : Chain := { slots := [sl], scenes := [{ bypass := 1, overrides := [⟨0, 0, 1⟩, ⟨0, 0, 9000⟩] }] }
    (0 < c.scenes.length ∧ ¬(1 < c.scenes.length)) ∧ c.slots[0]? = some sl ∧
    (setupChain t {} 24000 1 c).slots.map (·.run) = [[5000, 6, 20, 1023, 0, 20000]] := by decide

/-- One chain processed, edited in place, and with an incoming buffer that edits reach. -/
theorem witness_BlockBoundaryStartsDips :
    (let s := playing [{ kind := .amp, changes := [.param 1 15] }, { kind := .level, dipPhase := .down }]
     s.tne.boundaryDue = true ∧ s.aup.clock = .running ∧ s.tne.blockPos = 0 ∧
     s.rcu.joinedDue = false ∧ activeBuf s = some .a ∧ outgoingBuf s = none ∧ editBuf s = some .a) ∧
    (let s : State := { playing [] with
       tne := { (playing []).tne with bufB := { state := .ready, chain := { slots := [{ kind := .amp, changes := [.param 1 15] }] } } }
       rcu := { state := .fading, build := .b, flight := some { preset := 0, scene := 0, origin := .boot } } }
     s.tne.boundaryDue = true ∧ s.rcu.joinedDue = false ∧ activeBuf s = some .a ∧ outgoingBuf s = none ∧ editBuf s = some (otherBuf .a)) ∧
    r0.tne.boundaryDue = false := by decide

theorem witness_SlotDipTakesChanges :
    (let sl : Slot := { kind := .amp, changes := [.param 1 15], dip := Ramp.at 0, dipPhase := .down }
     slotAt (playing [sl]) .a 0 = some sl ∧ sl.dipPhase = .down ∧ sl.dip.count = 0 ∧
       (∀ c ∈ sl.changes, ∃ j v, c = .param j v) ∧ sl.kind ≠ .delay) ∧
    (let sl : Slot := { kind := .delay, run := [1, 0, 1, 0, 0, 0], changes := [.param 1 6], dip := Ramp.at 0, dipPhase := .down }
     slotAt (playing [sl]) .a 0 = some sl ∧ sl.dipPhase = .down ∧ sl.dip.count = 0 ∧ sl.kind = .delay ∧
       sl.changes = [.param 1 6] ∧ 1 < sl.run.length) ∧
    (let sl : Slot := { kind := .level, dipPhase := .up }
     slotAt (playing [sl]) .a 0 = some sl ∧ sl.dipPhase = .up ∧ sl.dip.count = 0) :=
  ⟨⟨rfl, rfl, rfl, fun c h => ⟨1, 15, List.mem_singleton.mp h⟩, by decide⟩, by decide, by decide⟩

/-- Two chains processed while FADING, and no chain at all. -/
theorem witness_BlockBoundaryStartsDips_fading :
    (let s : State := { playing [{ kind := .amp, changes := [.param 1 15] }] with
       tne := { (playing [{ kind := .amp, changes := [.param 1 15] }]).tne with
         bufB := { state := .outgoing, chain := { slots := [{ kind := .cab, changes := [.param 0 1] }] } } }
       rcu := { state := .fading, swapped := true, flight := some { preset := 0, scene := 0, origin := .boot } } }
     s.tne.boundaryDue = true ∧ s.tne.blockPos = 0 ∧ s.rcu.joinedDue = false ∧ activeBuf s = some .a ∧ outgoingBuf s = some .b ∧
     (match exec .blockBoundary s with | .next t => t.tne.load | _ => 0) = Kind.amp.cost + Kind.cab.cost) ∧
    (let s : State := { run0 with tne := { run0.tne with boundaryDue := true } }
     s.tne.boundaryDue = true ∧ activeBuf s = none ∧ outgoingBuf s = none) := by decide +kernel

/-- The table used by a slot of the OUTGOING buffer alone. -/
theorem witness_TableChangeAtBoundary_outgoing :
    (let s : State := { playing [] with
       tne := { (playing []).tne with
         curves := [(15, { incoming := some none })]
         bufB := { state := .outgoing, chain := { slots := [{ kind := .amp, run := [0, 15, 0, 0] }] } } } }
     outgoingBuf s = some .b ∧ tableInUse (.curve 15) s = true ∧ (Mem.get {} s.tne.curves 15).incoming = some none) := by decide +kernel

/-- The table used by no slot, used by one, and with its 64 samples gone. -/
theorem witness_TableChangeAtBoundary :
    (let cv : Curve := { incoming := some none }
     let fs : FilterSet := { incoming := some none }
     ∀ i ∈ [(0 : Nat), 15], ∀ slots ∈ [([] : List Slot), [{ kind := .amp, run := [0, i, i, 0] }]],
      let s : State := { playing slots with tne := { (playing slots).tne with curves := [(i, cv)], filters := [(i, fs)] } }
      s.aup.clock = .running ∧ s.tne.blockPos = 0 ∧ Mem.get {} s.tne.curves i = cv ∧ cv.incoming = some none ∧ cv.left = none ∧
      Mem.get {} s.tne.filters i = fs ∧ fs.left = none ∧ outgoingBuf s = none ∧
      tableInUse (.curve i) s = !slots.isEmpty ∧ tableInUse (.filterSet i) s = !slots.isEmpty) ∧
    (let cv : Curve := { incoming := some none, left := some 0 }
     let fs : FilterSet := { incoming := some none, left := some 0 }
     cv.left = some 0 ∧ cv.incoming = some none ∧ fs.left = some 0 ∧ fs.incoming = some none) := by decide +kernel

theorem witness_SlotAndBusEventsMove :
    (let sl : Slot := { kind := .gate, run := [0, 1], quiet := 480 }
     slotAt (playing [sl]) .a 0 = some sl ∧ sl.kind = .gate ∧ sl.gateOpen = true ∧ sl.quiet = 480 ∧ 0 < sl.run.getD 1 0) ∧
    (let sl : Slot := { kind := .reverb, bypass := .trailing }
     slotAt (playing [sl]) .a 0 = some sl ∧ sl.bypass = .trailing ∧ sl.stub = false ∧ sl.hold = 0 ∧ sl.falling = false) ∧
    (∀ k ∈ [(Kind.delay, ([1, 0, 1, 0, 1023, 0] : List Int)), (.reverb, [0, 1023, 0])],
      let sl : Slot := { kind := k.1, run := k.2, bypass := .trailing, falling := true }
      slotAt (playing [sl]) .a 0 = some sl ∧ sl.falling = true ∧ sl.voice.wet.count = 0 ∧ sl.stub = false ∧
      ((sl.kind = .delay ∧ 1023 = sl.run.getD 4 0) ∨ (sl.kind = .reverb ∧ 1023 = sl.run.getD 1 0))) ∧
    (∀ p ∈ [RelayPhase.muting, .out], let s : State := { r0 with tne := { busNotice := true }, acd := { relay := p } }
      s.tne.busNotice = true ∧ s.tne.muteRamp.v = 0 ∧ s.tne.muteRamp.count = 0 ∧ s.acd.relay = p) := by decide

theorem witness_SetParamWritesValue :
    Room .main r0 ∧ MayEdit .main r0 ∧ editBuf r0 = none ∧
    (let sl : Slot := { kind := .delay, params := [1, 0, 1, 0, 0, 0], run := [1, 0, 1, 0, 0, 0] }
     let s := playing (List.replicate 12 sl)
     Room .main s ∧ MayEdit .main s ∧ editBuf s = some .a ∧ slotAt s .a (11 : Byte).toNat = some sl ∧
     (buf s .a).chain.slots.length ≤ (12 : Byte).toNat ∧ sl.kind.params.length ≤ (6 : Byte).toNat ∧
     sl.kind.params[(5 : Byte).toNat]? = some (.setting, 0, 20000) ∧ sl.kind.params[(1 : Byte).toNat]? = some (.discrete, 0, 6) ∧
     sl.kind.params[(4 : Byte).toNat]? = some (.continuous, 0, 1023) ∧ (4 : Byte).toNat < sl.run.length ∧ sl.bypass = .engaged ∧
     slotAt (playing [{ sl with bypass := .bypassed }]) .a (0 : Byte).toNat = some { sl with bypass := .bypassed } ∧
     s.rcu.state ≠ .fading ∧ (∀ o ∈ ((buf s .a).chain.scenes.getD (buf s .a).chain.scene {}).overrides, ¬(o.slot = 11 ∧ o.param = 4))) ∧
    (let s : State := { r0 with
       tne := { bufB := { state := .ready, chain := {
         slots := [{ kind := .level, params := [0], run := [0] }], scenes := [{ overrides := [⟨0, 0, 1⟩, ⟨0, 0, 2⟩, ⟨1, 0, 3⟩] }] } } }
       rcu := { state := .fading, build := .b } }
     editBuf s = some .b ∧ s.rcu.state = .fading ∧ (buf s .b).chain.scene < (buf s .b).chain.scenes.length ∧
     ((buf s .b).chain.scenes.getD (buf s .b).chain.scene {}).overrides = [⟨0, 0, 1⟩] ++ ⟨0, 0, 2⟩ :: [⟨1, 0, 3⟩]) := by
  unfold Room MayEdit; decide +kernel

/-- The C-class parameters, by kind and place. -/
def continuousParams : List (Kind × Nat) :=
  [(.trim, 0), (.gate, 0), (.drive, 0), (.drive, 2), (.amp, 0), (.amp, 3), (.cab, 1), (.eq, 1), (.mod, 0), (.mod, 1), (.mod, 2),
   (.delay, 0), (.delay, 3), (.delay, 4), (.reverb, 0), (.reverb, 1), (.loop, 0), (.loop, 1), (.level, 0)]

/-- They are all of them, each on a slot that SET_PARAM reaches, engaged and not, a DELAY with its own time and under a sync. -/
theorem witness_SetParamWritesValue_classes :
    (∀ k ∈ [Kind.trim, .gate, .drive, .amp, .cab, .eq, .mod, .delay, .reverb, .loop, .level], ∀ i < 7,
      ((k.params[i]?).map (·.1) = some .continuous ↔ (k, i) ∈ continuousParams)) ∧
    ∀ x ∈ continuousParams, ∀ bypass ∈ [Bypass.engaged, .bypassed, .trailing], ∀ sync ∈ [0, 1],
      let sl : Slot := { kind := x.1, params := x.1.params.map (fun _ => 0), run := x.1.params.map (fun _ => sync), bypass := bypass }
      let s := playing [sl]
      editBuf s = some .a ∧ slotAt s .a 0 = some sl ∧ x.2 < sl.run.length ∧ sl.bypass = bypass ∧
      (x = (Kind.delay, 0) → sl.run.getD 1 0 = sync) := by decide +kernel

theorem witness_SlotBypassMovesSlot :
    Room .main r0 ∧ MayEdit .main r0 ∧ editBuf r0 = none ∧ 2 < (3 : Byte).toNat ∧
    (∀ st ∈ [Bypass.engaged, .bypassed, .trailing], ∀ trail ∈ [false, true],
      let sl : Slot := { kind := .reverb, run := [0, 0, 0], bypass := st, trail := trail, mixStored := !decide (st = .engaged) && trail }
      let s := playing (List.replicate 12 sl)
      Room .main s ∧ MayEdit .main s ∧ editBuf s = some .a ∧ slotAt s .a (11 : Byte).toNat = some sl ∧
      (buf s .a).chain.slots.length ≤ (12 : Byte).toNat ∧ (2 : Byte).toNat ≤ 2 ∧
      (buf s .a).chain.scene < (buf s .a).chain.scenes.length ∧ (sl.trail && sl.kind.spills) = trail ∧ sl.bypass = st) := by
  unfold Room MayEdit; decide +kernel

theorem witness_TableRequestsQueueContents :
    Room .main r0 ∧ MayEdit .main r0 ∧ (15 : Byte).toNat < 16 ∧ (31 : Byte).toNat < 32 ∧ 16 ≤ (16 : Byte).toNat ∧
    32 ≤ (32 : Byte).toNat ∧ (1 : Byte).toNat ≤ 1 ∧
    (let xs : List (BitVec 24) := List.replicate 17 0x800000
     0 < xs.length ∧ xs.length ≤ 80 ∧ 240 + xs.length ≤ 257 ∧ 240 + xs.length = 257) ∧
    (let xs : List (BitVec 24) := List.replicate 80 1
     xs.length ≤ 80 ∧ 0 + xs.length < 257) ∧
    (let c : Curve := { written := List.range 240 }
     let s : State := { r0 with tne := { curves := [(15, c)] } }
     (Mem.get {} s.tne.curves (15 : Byte).toNat).written = List.range 240) ∧
    (let qs : List (BitVec 16 × BitVec 16 × BitVec 16 × BitVec 16 × BitVec 16) := List.replicate 6 (0x8000, 1, 2, 3, 0x7FFF)
     0 < qs.length ∧ qs.length ≤ 6) ∧
    (∀ n ∈ [(0 : Byte), 1, 80, 81], (List.replicate (3 * n.toNat) (0 : Byte)).length = 3 * n.toNat) ∧
    (15 < (16 : Byte).toNat ∧ 80 < (81 : Byte).toNat ∧ 257 < 256 * (1 : Byte).toNat + (1 : Byte).toNat + (1 : Byte).toNat ∧
      1 < (2 : Byte).toNat) ∧
    (∀ n ∈ [(0 : Byte), 1, 7], (List.replicate (10 * n.toNat) (0 : Byte)).length = 10 * n.toNat) ∧
    (31 < (32 : Byte).toNat ∧ 6 < (7 : Byte).toNat) := by
  unfold Room MayEdit; decide +kernel

theorem witness_MapAndPedalRequests :
    Room .main r0 ∧ MayEdit .main r0 ∧ (7 : Byte).toNat < 8 ∧ 8 ≤ (8 : Byte).toNat ∧ (119 : Byte).toNat < 120 ∧ 1 ≤ (1 : Byte).toNat ∧
    (4 : Byte).toNat ≤ 4 ∧ 1 < (2 : Byte).toNat ∧ (1 : Byte).toNat ≤ 1 ∧
    (let e : MapEntry := ⟨.p1, .level, 4, 0, 0, 1023⟩
     let sl : Slot := { kind := .level, params := [0], run := [0] }
     let s := playing (List.replicate 12 sl)
     let s : State := { s with tne := { s.tne with ctrlMap := [(0, some e)] } }
     Room .main s ∧ e.source.key = 121 ∧ e.kind = .level ∧ e.param = 0 ∧ 0 ≤ e.min ∧ e.min ≤ e.max ∧ e.max ≤ 1023 ∧
     Mem.get none s.tne.ctrlMap 0 = some e ∧ editBuf s = some .a ∧ nthOfKind .level e.occ 0 (buf s .a).chain.slots = some 3 ∧
     slotAt s .a 3 = some sl) ∧
    (∀ k ∈ List.range 8, Mem.get none r0.tne.ctrlMap k = none) ∧ editBuf r0 = none := by
  unfold Room MayEdit; decide +kernel

/-- CTRL_MAP at the bounds of its fields and past them: source, CC number, kind, occurrence, and a parameter of class D and one the kind lacks. -/
theorem witness_MapAndPedalRequests_fields :
    (((3 : Byte) = 3 ∧ (119 : Byte).toNat < 120) ∧ ¬(120 : Byte).toNat < 120 ∧ ((4 : Byte) ≠ 0 ∧ (4 : Byte) ≠ 1 ∧ (4 : Byte) ≠ 2 ∧ (4 : Byte) ≠ 3)) ∧
    (1 ≤ (1 : Byte).toNat ∧ (4 : Byte).toNat ≤ 4 ∧ (0 : Byte) = 0 ∧ 4 < (5 : Byte).toNat) ∧
    (∀ x ∈ continuousParams, ∃ least most : Int, x.1.params[x.2]? = some (.continuous, least, most)) ∧
    (∀ x ∈ [(Kind.amp, 1), (.trim, 1), (.level, 255)], (x.1.params[x.2]?).map (·.1) ≠ some .continuous) ∧
    (let kinds : List (Option Kind) := [none, some .trim, some .gate, some .drive, some .amp, some .cab, some .eq, some .mod, some .delay,
       some .reverb, some .loop, some .level]
     kinds.getD (0 : Byte).toNat none = none ∧ kinds.getD (1 : Byte).toNat none = some .trim ∧ kinds.getD (11 : Byte).toNat none = some .level ∧
       kinds.getD (12 : Byte).toNat none = none) := by
  refine ⟨by decide, by decide, fun x h => ?_, by decide, by decide⟩
  fin_cases h <;> exact ⟨_, _, rfl⟩

/-- PEDAL with two entries of P1 on one slot, one on another and one that finds none. -/
theorem witness_MapAndPedalRequests_pedal :
    let e : MapEntry := ⟨.p1, .level, 1, 0, 0, 1023⟩
    let map : Mem (Option MapEntry) := [(0, some e), (1, some { e with occ := 4 }), (6, some { e with kind := .delay, param := 4 }), (7, some e)]
    let s := playing [{ kind := .level, params := [0], run := [0] }, { kind := .delay, params := [1, 0, 1, 0, 0, 0], run := [1, 0, 1, 0, 0, 0] }]
    let s : State := { s with tne := { s.tne with ctrlMap := map } }
    Room .main s ∧ editBuf s = some .a ∧ (1 : Byte).toNat ≤ 1 ∧
    (∀ k ∈ [0, 1, 6, 7], (Mem.get none s.tne.ctrlMap k).map (·.source.key) = some 121) ∧ Mem.get none s.tne.ctrlMap 2 = none ∧
    nthOfKind .level 1 0 (buf s .a).chain.slots = some 0 ∧ nthOfKind .level 4 0 (buf s .a).chain.slots = none ∧
    nthOfKind .delay 1 0 (buf s .a).chain.slots = some 1 := by
  unfold Room; decide +kernel

/-! ### Line memory and tails -/

/-- A tail record at rest in DECAY with region 0, and its region. -/
def tail0 : Tail := { index := 3, preset := 0, kind := .delay, voice := { region := some 0 }, hold := 0, phase := .decay, marked := true }

/-- A state with tails and remnants. -/
def tailed (tails : List Tail) (remnants : Mem (Option Remnant)) : State :=
  { r0 with
    tne := { tails := tails, remnants := remnants }
    lma := { free := (List.range 256).drop 2, regions := [(0, some ⟨.tail 3, [0, 1]⟩)] } }

theorem witness_TailEventsFreeRecords :
    ((tailed [tail0] []).tne.tails.find? (fun u => decide (u.index = 3)) = some tail0 ∧ tail0.phase = .decay ∧
      tail0.voice.wet.count = 0 ∧ tail0.voice.region = some 0 ∧
      Mem.get none (tailed [tail0] []).lma.regions 0 = some ⟨.tail 3, [0, 1]⟩) ∧
    (let g : Remnant := { kind := .delay, voice := { region := some 0 } }
     Mem.get none (tailed [] [(3, some g)]).tne.remnants 3 = some g ∧ g.voice.wet.count = 0 ∧ g.voice.region = some 0) ∧
    (let s : State := { r0 with tne := { release := true } }
     s.tne.release = true ∧ (∀ tl ∈ s.tne.tails, tl.counted = false) ∧ (∀ g ∈ remnantList s.tne, g.counted = false)) ∧
    (let g : Remnant := { kind := .delay, voice := {} }
     let s := tailed [tail0] [(0, some g), (1, some g), (2, some g)]
     s.tne.tails = [] ++ tail0 :: [] ∧ tail0.marked = true ∧ 3 < 4 ∧ Mem.get none s.tne.remnants 3 = none ∧
     (∀ j : Nat, j < 3 → Mem.get none s.tne.remnants j ≠ none) ∧ tail0.voice.wet = ⟨0, tail0.voice.wet.target, 0⟩) ∧
    (let tl : Tail := { tail0 with voice := { region := some 0, wet := ⟨8192, 0, 257⟩ } }
     tl.voice.wet ≠ ⟨0, tl.voice.wet.target, 0⟩) ∧
    (∀ tl ∈ r0.tne.tails, tl.marked = false) ∧
    (let g : Remnant := { kind := .delay, voice := {} }
     ∀ k : Nat, k < 4 → Mem.get none (tailed [] [(0, some g), (1, some g), (2, some g), (3, some g)]).tne.remnants k ≠ none) := by
  decide +kernel

/-- A build in buffer A that waits with a request list and a number of free pages. -/
def building (kind : Kind) (reqs : List PageReq) (free : List Nat) : State :=
  { r0 with
    tne := { bufA := { state := .loading, chain := { slots := [{ kind := kind }, { kind := .mod }] } } }
    lma := { free := free, requests := some reqs }
    rcu := { state := .loading, flight := some { preset := 0, scene := 0, origin := .boot } } }

/-- The next request is short with two tails, whose pages reach it with the first mark, with both, and not at all. -/
theorem witness_GrantsTakeLowestPages_marking :
    ∀ n ∈ [2, 3, 4, 200],
      let s := building .delay [⟨0, 57⟩, ⟨1, n⟩] ((List.range 59).drop 1)
      let s : State := { s with
        tne := { s.tne with tails := [{ tail0 with marked := false }, { tail0 with index := 4, voice := { region := some 1 } }] }
        lma := { s.lma with regions := [(0, some ⟨.tail 3, [0]⟩), (1, some ⟨.tail 4, [59, 60]⟩)] } }
      slotAt s s.rcu.build 0 = some { kind := .delay } ∧ s.lma.requests = some [⟨0, 57⟩, ⟨1, n⟩] ∧ 57 ≤ s.lma.free.length ∧
      s.lma.free.length < 57 + n ∧ s.tne.tails.length ≤ 4 ∧
      (regionPages s.lma (some 0)).length = 1 ∧ (regionPages s.lma (some 1)).length = 2 := by decide +kernel

theorem witness_GrantsTakeLowestPages :
    (let s := building .delay [⟨0, 57⟩, ⟨1, 2⟩] (List.range 58)
     slotAt s s.rcu.build 0 = some { kind := .delay } ∧ s.lma.requests = some [⟨0, 57⟩, ⟨1, 2⟩] ∧ 57 ≤ s.lma.free.length ∧
     s.lma.free.length < 57 + 2 ∧ s.tne.tails = []) ∧
    (let s := building .delay [⟨0, 57⟩] (List.range 57)
     s.lma.requests = some [⟨0, 57⟩] ∧ 57 ≤ s.lma.free.length ∧ newRelays s = none ∧ quantized s = false) ∧
    (∀ k ∈ [Kind.delay, .reverb], ∀ free ∈ [List.range 56, []],
     let s := building k [⟨0, 57⟩] free
     slotAt s s.rcu.build 0 = some { kind := k } ∧ s.lma.requests = some [⟨0, 57⟩] ∧ s.lma.free.length < 57 ∧ s.tne.tails = [] ∧
     s.tne.remnants = [] ∧ newRelays s = none ∧ quantized s = false) := by decide +kernel

/-! ### Tuner and tempo -/

theorem witness_SpansAndLockMachine :
    ((4096 : Int) ≤ 4096 ∧ (204800 : Int) ≤ 204800) ∧ ((4095 : Int) < 4096) ∧ (204800 < (204801 : Int)) ∧
    ((17 ≠ 16) ∨ 25 < ((26 : Int) - 0).natAbs) ∧ ((25 : Int) - 0).natAbs ≤ 25 ∧
    (0 < 4 ∧ ([true, false, true] ++ [true]).length ≤ 4 ∧ ([true, false, true] : List Bool).count false ≤ 1) ∧
    (([true, true, true] ++ [false]).length ≤ 4 ∧ ([true, true, true] : List Bool).count false = 0 ∧
      ([true, false, true] : List Bool).count false = 1) ∧
    (∀ c : Int, (some (16, 26) : Option (Nat × Int)) = some (16, c) → 25 < (c - 0).natAbs) ∧
    (∀ c : Int, (none : Option (Nat × Int)) = some (16, c) → 25 < (c - 0).natAbs) := by
  refine ⟨by decide, by decide, by decide, by decide, by decide, by decide, by decide, fun c h => ?_, fun c h => by cases h⟩
  cases h
  decide

/-- The least and the greatest octave and ratio; the spans of R86's second table, at 440.0 Hz. -/
theorem witness_SpansAndLockMachine_table :
    (1 ≤ 1 ∧ 6 ≤ 6 ∧ ([110218, 104032, 98194, 92682, 87480, 82570, 77935, 73562, 69433, 65536, 61858, 58386] : List Nat)[11]? = some 58386) ∧
    [0, 16, 20, 21, 22, 36, 40, 45, 66, 67, 71].map (noteSpan 4400) =
      [187856, 74552, 59172, 55852, 52716, 23482, 18638, 13963, 4151, 3918, 3109] := by decide

/-- A state with tuner channel T2 as given. -/
def channel2 (c : Channel) : State := { r0 with tun := { t2 := c } }

theorem witness_TunerEventsMoveChannel :
    (chan (channel2 { span := some 204800 }) .t2).span = some 204800 ∧ (chan r0 .t2).span = none ∧ (chan r0 .t2).timer = true ∧
    (chan (channel2 { timer := false }) .t2).timer = false ∧
    (chan (channel2 { display := .held 71 (-50) }) .t2).display = .held 71 (-50) := by decide

/-- A complete measurement with the mode ON and OFF, on the channel that the mode or the ACTIVE buffer's input selects and on the other, of a
channel that is LOCKED and one that is not. -/
theorem witness_TunerEventsMoveChannel_reports :
    ∀ on ∈ [false, true], ∀ selected ∈ [TuneChannel.t1, .t2, .follow], ∀ input ∈ [InputSel.lane1, .lane2, .sum],
      ∀ lock ∈ [LockState.search, .locked 33 0 []],
      let s : State := { r0 with
        tun := { t2 := { span := some 34909, lock := lock }, mode := ⟨on, selected, .mute, false⟩ }
        tne := { bufA := { state := .active, chain := { input := input } } } }
      (chan s .t2).span = some 34909 ∧ (chan s .t2).timer = true ∧ s.tun.mode.on = on ∧ activeBuf s = some .a ∧
      (buf s .a).chain.input = input ∧ s.tun.mode.channel = selected := by decide

theorem witness_TunerRequestsWriteMode :
    Room .main r0 ∧ MayEdit .main r0 ∧ (2 : Byte).toNat ≤ 2 ∧ (1 : Byte).toNat ≤ 1 ∧ (7 : Byte).toNat < 8 ∧
    (8 ≤ (8 : Byte).toNat ∧ (8 : Byte).toNat % 8 = 0) ∧
    (max 4000 (min 4800 4400) = r0.tun.ref ∧ max 4000 (min 4800 4801) ≠ r0.tun.ref) ∧
    ((1 : Byte) ≠ 0 ∧ (1 : Byte) ≠ 4 ∧ (1 : Byte) ≠ 5 ∧ (1 : Byte) ≠ 6) ∧
    ([[3, 0], [0, 8], [0, 1, 3], [0, 2, 3], [0, 4, 2]].map (fun p => reply (next (.tune (m p)) r0))).all (· = some (.badField, .none)) ∧
    ([[0], [4], [7, 0x11, 0x30, 4]].map (fun p => reply (next (.tunerRef (m p)) r0))).all (· = some (.badField, .none)) ∧
    (chan (channel2 { lock := .locked 0 0 [true, true, false, true, true, true] }) .t2).lock =
      .locked 0 0 [true, true, false, true, true, true] := by unfold Room MayEdit; decide

/-- Synced DELAY slots, one without a region, in an ACTIVE and a LOADING buffer. -/
def synced : State :=
  let sl : Slot := { kind := .delay, run := [1, 6, 1, 0, 0, 0], voice := { region := some 0 } }
  let s := playing [sl, { sl with voice := {} }]
  { s with
    tne := { s.tne with bufB := { state := .loading, chain := { slots := [{ sl with run := [1, 1, 1, 0, 0, 0] }] } } }
    lma := { regions := [(0, some ⟨.slot .a 0, List.range 100⟩)] } }

/-- The delay ramps of the slots of a buffer after a command. -/
def delaysAfter (c : Instr) (s : State) (bid : BufId) : List Ramp :=
  match exec c s with
  | .next t => (buf t bid).chain.slots.map (fun sl => sl.voice.a)
  | _ => []

/-- TEMPO 3000 retimes the synced slots (R110); the slot with no region takes the target 1. -/
theorem witness_TempoRequestsSetTempo_paced :
    let c := Instr.tempo { link := .main, tag := 7, payload := [0x0B, 0xB8] }
    delaysAfter c synced .a = [⟨0, 19200, 512⟩, ⟨0, 1, 512⟩] ∧ delaysAfter c synced .b = [⟨0, 9600, 512⟩] := by decide +kernel

theorem witness_TempoRequestsSetTempo :
    let locked : State := withT { midiSource := true, follower := { state := .locked } } run0
    Room .main run0 ∧ Room .main locked ∧ (run0.tmp.midiSource = false ∧ locked.tmp.midiSource = true ∧
      locked.tmp.follower.state = .locked) ∧
    (let s : State := withT { midiSource := true } r0
     s.tmp.midiSource = true ∧ s.tmp.follower.state ≠ .locked ∧ s.aup.clock ≠ .running) ∧
    (run0.aup.clock = .running ∧ run0.tmp.lastTap = none) ∧
    (∀ now ∈ [9599, 9600, 72000, 72001, 96000, 96001],
      let s : State := withT { sampleNo := now, lastTap := some 0, intervals := [24000, 24000, 24000, 24000] } run0
      s.aup.clock = .running ∧ s.tmp.lastTap = some 0 ∧ s.tmp.sampleNo = now) := by unfold Room; decide

theorem witness_FollowerAndBeatEvents :
    (run0.tmp.follower.state = .noClock ∧ run0.tmp.follower.start = none ∧ r0.aup.clock ≠ .running) ∧
    (let f : Follower := { state := .search, start := some 0, count := 23, timer := true }
     f.state ≠ .noClock ∧ f.start = some 0 ∧ f.count < 24 ∧ f.timer = true ∧ f.state = .search) ∧
    (∀ m1 ∈ [none, some 24490, some 24489],
      let f : Follower := { state := .search, start := some 0, count := 24, m1 := m1 }
      let s : State := withT { sampleNo := 24000, follower := f } run0
      s.tmp.follower.state = .search ∧ s.tmp.follower.start = some 0 ∧ s.tmp.follower.count = 24) ∧
    (24490 < ((24000 : Int) - 24490).natAbs * 50 ∧ ((24000 : Int) - 24489).natAbs * 50 ≤ 24489) ∧
    (∀ midi ∈ [false, true], ∀ h ∈ [[], [false, false, false, true], [true, false, false, false]],
      let f : Follower := { state := .locked, start := some 0, count := 24, b := 25000, history := h, timer := true }
      let s : State := withT { midiSource := midi, sampleNo := 24000, follower := f } run0
      s.tmp.follower.state = .locked ∧ s.tmp.midiSource = midi ∧ ¬ f.b < ((24000 : Int) - f.b).natAbs * 25 ∧ f.timer = true ∧
      f.start = some 0 ∧ f.count = 24) ∧
    (let kept := fun (h : List Bool) (d : Bool) => (h ++ [d]).drop ((h ++ [d]).length - 4)
     (kept [false, false, false, true] false).count true = 1 ∧ (kept [true, false, false, false] true).count true = 1 ∧
     (kept [] true).count true = 1 ∧ (kept [false, false, false, true] true).count true = 2) ∧
    (∀ st ∈ [FollowState.search, .locked],
      let s : State := withT { follower := { state := st } } run0
      s.tmp.follower.state ≠ .noClock ∧ s.tmp.follower.start = none ∧ s.aup.clock = .running ∧ ({ s with aup := {} } : State).aup.clock ≠ .running) ∧
    (25000 < ((23999 : Int) - 25000).natAbs * 25) ∧
    (let s := withT { beatDue := true } run0
     s.tmp.beatDue = true ∧ s.aup.clock = .running ∧ s.tmp.midiSource = false) ∧
    (let s := withT { beatDue := true, midiSource := true } run0
     s.tmp.midiSource = true ∧ s.tmp.follower.state ≠ .locked) ∧
    ((withT { beatDue := true } r0).aup.clock ≠ .running ∧ r0.tmp.beatDue = false) := by decide
/-! ### Switches, MIDI and bindings -/

/-- A state with bindings and one switch as given. -/
def switched (b : Mem Binding) (k : Nat) (e : SwitchEntry) : State := { r0 with swc := { bindings := b, switches := [(k, e)] } }

/-- The store past its scan, with one preset, 255, in its directory. -/
def stored : State := { run0 with pst := { scanning := false, dir := [(255, some ⟨0, 0, 1, 52⟩)] } }

/-- The record `i` alone is named by a gesture of a switch, with no condition and no report (the form `lone` of SwitchEdgesFire). -/
def loneRecord (s : State) (k : Nat) (g : Gesture) (a : Action) (i : Nat) : Bool :=
  decide (i < 64 ∧ namesSwitch k g (bindingAt s i).trigger = true ∧ (bindingAt s i).cond = none ∧ (bindingAt s i).action = a ∧
    (bindingAt s i).report = false ∧ ∀ j : Nat, j < 64 → j ≠ i → namesSwitch k g (bindingAt s j).trigger = false)

/-- No record is named by a gesture of a switch. -/
def silentRecord (s : State) (k : Nat) (g : Gesture) : Bool :=
  decide (∀ i : Nat, i < 64 → namesSwitch k g (bindingAt s i).trigger = false)

theorem witness_SwitchEdgesFire :
    (Room .foot r0 ∧ Room .main r0) ∧ ¬(16 : Byte).toNat < 16 ∧ (15 : Byte).toNat < 16 ∧ (16 ≤ (23 : Byte).toNat ∧ (23 : Byte).toNat < 24) ∧
    1 < (2 : Byte).toNat ∧ (switchAt (switched [] 15 { down := true }) 15).down = true ∧ (switchAt r0 15).down = false ∧
    (let s := switched [(63, { trigger := .foot 15 .hold, action := .bank .up })] 15 { down := true, timer := .running }
     loneRecord s 15 .hold (.bank .up) 63 ∧ (switchAt s 15).down = true ∧ (switchAt s 15).timer = .running) ∧
    (∀ a ∈ [Action.flag .toggle 0xFF, .momentary 255 3],
      let s := switched [(0, { trigger := .foot 15 .press, action := a })] 0 {}
      silentRecord s 15 .hold ∧ loneRecord s 15 .press a 0 ∧ (switchAt s 15).down = false ∧ s.swc.stack.length < 4 ∧ s.pst.scanning = true ∧
      4 ≤ (List.replicate 4 (none : Option Nat)).length) ∧
    (let s := switched [(3, { trigger := .foot 15 .press, action := .flag .set 1 }), (4, { trigger := .foot 15 .release, action := .flag .set 2 })]
       15 { down := true, timer := .running }
     (switchAt s 15).down = true ∧ (switchAt s 15).timer = .running ∧ (switchAt s 15).momentary = 0 ∧
     loneRecord s 15 .press (.flag .set 1) 3 ∧ loneRecord s 15 .release (.flag .set 2) 4) := by
  unfold Room; decide +kernel

/-- A release that pops: the stack empty, a preset on it while the store is SCANNING, and one that is present. -/
theorem witness_SwitchEdgesFire_pop :
    (let s := switched [] 23 { down := true, timer := .expired, momentary := 2 }
     (switchAt s 23).down = true ∧ (switchAt s 23).timer ≠ .running ∧ (switchAt s 23).momentary = 2 ∧ s.swc.stack = [] ∧
     silentRecord s 23 .release) ∧
    (∀ on ∈ [false, true],
      let s : State := { switched [] 23 { down := true, timer := .expired, momentary := 1 } with
        pst := { scanning := on, dir := [(255, some ⟨0, 0, 1, 52⟩)] } }
      let s : State := { s with swc := { s.swc with stack := [(some 255, 3)] } }
      (switchAt s 23).momentary = 1 ∧ s.swc.stack = (some 255, 3) :: [] ∧ silentRecord s 23 .release ∧ s.pst.scanning = on ∧
      entry s.pst 255 = some ⟨0, 0, 1, 52⟩ ∧ s.rcu.state = .idle ∧ activeBuf s = none ∧ s.pst.op = none ∧ s.pst.reads = []) := by
  decide +kernel

/-- Synthetic releases: of a switch that nothing names, of one and of two with a RELEASE record, and of one that pops. -/
theorem witness_SwitchEdgesFire_synthetic :
    (let v := switched [] 15 { down := true }
     (switchAt v 15).down = true ∧ silentRecord v 15 .release ∧ ∀ j ∈ List.range 16, (switchAt v j).down = true → j = 15) ∧
    (let v : State := { r0 with swc := {
       switches := [(0, { down := true }), (15, { down := true })]
       bindings := [(9, { trigger := .foot 0 .release, action := .flag .set 1 }), (8, { trigger := .foot 15 .release, action := .flag .toggle 0xFF })] } }
     (switchAt v 0).down = true ∧ (switchAt v 15).down = true ∧ (∀ j ∈ List.range 16, (switchAt v j).down = true → j = 0 ∨ j = 15) ∧
     (switchAt v 0).momentary = 0 ∧ (switchAt v 15).momentary = 0 ∧ loneRecord v 0 .release (.flag .set 1) 9 ∧
     loneRecord v 15 .release (.flag .toggle 0xFF) 8) ∧
    (∀ l ∈ [[], [(some 255, 3)]], let v : State := { r0 with swc := { switches := [(4, { down := true, momentary := 1 })], stack := l } }
      (switchAt v 4).down = true ∧ (switchAt v 4).momentary = 1 ∧ silentRecord v 4 .release ∧ v.swc.stack = l ∧ v.pst.scanning = true) := by
  decide +kernel

/-- No record of the default table has a MIDI trigger. -/
theorem defaults_no_midi (i : Nat) (h : i < 64) : (∀ c th, (bindingAt r0 i).trigger ≠ .midiCc c th) ∧ (∀ n, (bindingAt r0 i).trigger ≠ .midiPc n) := by
  have h' : ∀ i < 64, (match (bindingAt r0 i).trigger with | .midiCc .. => false | .midiPc _ => false | _ => true) = true := by
    decide +kernel
  have := h' i h
  constructor <;> intros <;> intro hc <;> rw [hc] at this <;> cases this

/-- A record of another trigger is no record of a control change. -/
theorem no_cc {s : State} {i : Nat} (h : (match (bindingAt s i).trigger with | .midiCc .. => false | _ => true) = true) :
    ∀ c th, (bindingAt s i).trigger ≠ .midiCc c th := fun c th e => by rw [e] at h; cases h

/-- Two records with MIDI triggers that work on the flags. -/
def midiBound : State :=
  { r0 with swc := { bindings := [(62, { trigger := .midiPc 127, action := .flag .toggle 0xFF }), (63, { trigger := .midiCc 119 64, action := .flag .set 1 })] } }

theorem midiBound_one_cc (j : Nat) (h : j < 64) (hj : j ≠ 63) (c th : Nat) : (bindingAt midiBound j).trigger ≠ .midiCc c th := by
  have h' : ∀ j < 64, j ≠ 63 → (match (bindingAt midiBound j).trigger with | .midiCc .. => false | _ => true) = true := by decide +kernel
  exact no_cc (h' j h hj) c th

theorem witness_MidiLineMessages :
    (1 ≤ 1 ∧ 16 ≤ 16 ∧ 119 < 120) ∧
    (let s : State := { r0 with swc := { channel := some 16 } }
     s.swc.channel ≠ none ∧ s.swc.channel ≠ some 15) ∧
    ((r0.swc.channel = none ∨ r0.swc.channel = some 1) ∧
      (∀ i : Nat, i < 64 → ∀ th : Nat, (bindingAt r0 i).trigger ≠ .midiCc 119 th) ∧
      (∀ i : Nat, i < 64 → (bindingAt r0 i).trigger ≠ .midiPc 127) ∧ r0.swc.directMap = false ∧
      (∀ k e, k < 8 → Mem.get none r0.tne.ctrlMap k = some e → e.source.key ≠ 119)) ∧
    (let s : State := { r0 with swc := { directMap := true } }
     s.swc.directMap = true ∧ s.pst.scanning = true) ∧
    (let s : State := { run0 with swc := { directMap := true, bankSelect := 1 }, pst := { scanning := false, dir := [(255, some ⟨0, 0, 1, 52⟩)] } }
     s.swc.bankSelect * 128 + 127 = 255 ∧ s.pst.scanning = false ∧ entry s.pst 254 = none ∧ entry s.pst 255 = some ⟨0, 0, 1, 52⟩ ∧
     s.rcu.state = .idle ∧ s.pst.op = none ∧ s.pst.reads = [] ∧
     (∀ bid : BufId, activeBuf s = some bid → (buf s bid).chain.preset ≠ 255 ∨ (buf s bid).chain.edited = true)) ∧
    ((bindingAt midiBound 62).trigger = .midiPc 127 ∧ (bindingAt midiBound 62).cond = none ∧
      (bindingAt midiBound 62).action = .flag .toggle 0xFF ∧ (bindingAt midiBound 62).report = false ∧
      (∀ j : Nat, j < 64 → j ≠ 62 → (bindingAt midiBound j).trigger ≠ .midiPc 127)) ∧
    ((bindingAt midiBound 63).trigger = .midiCc 119 64 ∧ (bindingAt midiBound 63).action = .flag .set 1 ∧
      (∀ j : Nat, j < 64 → j ≠ 63 → ∀ th : Nat, (bindingAt midiBound j).trigger ≠ .midiCc 119 th) ∧
      (∀ k e, k < 8 → Mem.get none midiBound.tne.ctrlMap k = some e → e.source.key ≠ 119)) ∧
    (0xF8 < (0xF9 : Byte).toNat ∧ 0xF0 ≤ (0xF0 : Byte).toNat ∧ (0xF7 : Byte).toNat < 0xF8 ∧ 0x80 ≤ (0x80 : Byte).toNat ∧
      (0xEF : Byte).toNat < 0xF0 ∧ (0x7F : Byte).toNat < 0x80 ∧ r0.swc.running = none) ∧
    (let s : State := { r0 with swc := { running := some 0xBF } }
     s.swc.discard = false ∧ s.swc.running = some 0xBF ∧ ((0xBF : Byte).toNat < 0xC0 ∨ 0xE0 ≤ (0xBF : Byte).toNat) ∧
     ((0xE0 : Byte).toNat < 0xC0 ∨ 0xE0 ≤ (0xE0 : Byte).toNat) ∧ s.swc.gathered = [] ∧ (0xBF : Byte) = BitVec.ofNat 8 (175 + 16) ∧
     (0xCF : Byte) = BitVec.ofNat 8 (191 + 16)) :=
  ⟨by decide, by decide,
    ⟨.inl rfl, fun i h th => (defaults_no_midi i h).1 119 th, fun i h => (defaults_no_midi i h).2 127, rfl,
      fun _ _ _ h => (by cases h)⟩, by decide, ⟨rfl, rfl, rfl, rfl, rfl, rfl, rfl, fun _ h => (by cases h)⟩,
    ⟨rfl, rfl, rfl, rfl, by decide +kernel⟩,
    ⟨rfl, rfl, fun j h hj th => midiBound_one_cc j h hj 119 th, fun _ _ _ h => (by cases h)⟩, by decide, by decide⟩

theorem witness_FlagsAndBindings :
    Room .main r0 ∧ MayEdit .main r0 ∧ 2 < (3 : Byte).toNat ∧ (2 : Byte).toNat ≤ 2 ∧ 63 < (64 : Byte).toNat ∧ (63 : Byte).toNat < 64 ∧
    ([1, 15, 2, 0xFF, 7, 2, 31, 0, 0, 0, 0, 1] : List Byte).length = 12 ∧
    parseBinding [1, 15, 2, 0xFF, 7, 2, 31, 0, 0, 0, 0, 1] = some { trigger := .foot 15 .hold, action := .bank (.set 31), report := true } ∧
    parseBinding [1, 16, 2, 0xFF, 7, 2, 31, 0, 0, 0, 0, 1] = none := by unfold Room MayEdit; decide +kernel

/-- A state whose record 63 alone is fired, by program change 127, with an action, a condition and a report flag, in the state given. -/
def pcBound (r : Binding) (s : State) : State := { s with swc := { s.swc with bindings := [(63, { r with trigger := .midiPc 127 })] } }

/-- Such a record is the only one of its trigger. -/
theorem pcBound_one (r : Binding) (s : State) (j : Nat) (h : j ≠ 63) (n : Nat) : (bindingAt (pcBound r s) j).trigger ≠ .midiPc n := by
  simp [bindingAt, pcBound, Mem.get, Ne.symm h]

/-- The record is fired, its condition holds or not, and the states its actions speak of. -/
theorem witness_FlagsAndBindings_fired :
    (∀ v ∈ [false, true], ∀ a ∈ [Action.recall 255 3, .recallBank 7 0, .flip 255 0 255 3, .momentary 255 0, .ret],
      let s := pcBound { action := a, cond := some (7, v), report := true } stored
      (s.swc.channel = none ∨ s.swc.channel = some 16) ∧ (bindingAt s 63).trigger = .midiPc 127 ∧ (bindingAt s 63).action = a ∧
      (s.swc.flags.getLsbD 7 = v ↔ v = false) ∧ s.pst.scanning = false ∧ entry s.pst 255 = some ⟨0, 0, 1, 52⟩ ∧ entry s.pst 254 = none ∧
      s.rcu.state = .idle ∧ activeBuf s = none ∧ s.pst.op = none ∧ s.pst.reads = [] ∧ s.swc.stack.length < 4) ∧
    (∀ l ∈ [[], [(some 255, 3)], [(none, 0)]],
      let s : State := pcBound { action := .ret } { stored with swc := { stored.swc with stack := l } }
      s.swc.stack = l ∧ (bindingAt s 63).action = .ret) := by decide +kernel

/-- The same of SLOT_TOGGLE and SCENE, of TAP, and of TUNE and BYPASS. -/
theorem witness_FlagsAndBindings_units :
    (∀ slots ∈ [([] : List Slot), [{ kind := .reverb }], [{ kind := .reverb, trail := true }], [{ kind := .reverb, bypass := .trailing }]],
      let s := pcBound { action := .slotToggle .reverb 1 } (playing slots)
      editBuf s = some .a ∧ activeBuf s = some .a ∧ nthOfKind .reverb 1 0 (buf s .a).chain.slots = (if slots = [] then none else some 0) ∧
      (buf s .a).chain.scenes.length = 1 ∧ s.rcu.flight = none ∧ slotAt s .a 0 = slots.head?) ∧
    (let s := pcBound { action := .tap } run0
     (s.tmp.midiSource = false ∧ s.aup.clock = .running ∧ s.tmp.lastTap = none)) ∧
    (∀ now ∈ [9600, 72000], let s := pcBound { action := .tap } (withT { sampleNo := now, lastTap := some 0, intervals := [24000, 24000, 24000, 24000] } run0)
      s.tmp.lastTap = some 0 ∧ 9600 ≤ s.tmp.sampleNo - 0 ∧ s.tmp.sampleNo - 0 ≤ 72000) ∧
    (∀ op ∈ [OnOff.on, .off, .toggle], (bindingAt (pcBound { action := .bypass op } r0) 63).action = .bypass op ∧
      (bindingAt (pcBound { action := .tune op } r0) 63).action = .tune op) ∧
    (∀ relay ∈ [RelayPhase.circuit, .out], ∀ other ∈ [false, true],
      let s : State := pcBound { action := .bypass .on } { r0 with acd := { relay := relay, conds := ⟨other, false, false, false, false⟩ } }
      s.acd.relay = relay ∧ s.acd.conds.other = other ∧ s.acd.manual = false) := by decide +kernel

/-- Two records of one program change, the second with a condition on a flag the first sets. -/
theorem witness_FlagsAndBindings_copy :
    let s : State := { r0 with swc := { bindings := [(0, { trigger := .midiPc 127, action := .flag .set 1 }),
      (63, { trigger := .midiPc 127, cond := some (0, true), action := .flag .toggle 0xFF })] } }
    bindingAt s 0 = { trigger := .midiPc 127, action := .flag .set 1 } ∧
    bindingAt s 63 = { trigger := .midiPc 127, cond := some (0, true), action := .flag .toggle 0xFF } ∧
    (∀ k : Nat, k < 64 → k ≠ 0 → k ≠ 63 → (bindingAt s k).trigger ≠ .midiPc 127) := by decide +kernel

/-- A record at the bounds of its fields, a full PRESET image and a GLOBALS image. -/
theorem witness_RecordBytesRoundTrip :
    (15 < 16 ∧ (16 ≤ 23 ∧ 23 < 24) ∧ 127 < 128 ∧ (119 < 120 ∧ 1 ≤ 1 ∧ 127 < 128)) ∧
    (let r : Binding := { trigger := .midiCc 119 127, cond := some (7, true), action := .flip 255 3 0 0, report := true }
     (match r.cond with | some (k, _) => k < 8 | none => True) ∧ (255 < 256 ∧ 3 < 4 ∧ 0 < 256 ∧ 0 < 4)) ∧
    (let sl : Slot := { kind := .delay, spill := true, trail := true, params := [1, 0, 6, 1023, 1023, 20000] }
     let sc : Scene := { ramp := 8192, overrides := List.replicate 8 ⟨11, 4, 1023⟩, relays := some ⟨0x80, 8⟩ }
     let c : Chain := { slots := List.replicate 12 sl, scenes := List.replicate 4 sc, fadeLen := 65535, tempo := some 3000, relays := some ⟨1, 1⟩ }
     c.slots.length ≤ 12 ∧ 1 ≤ c.scenes.length ∧ c.scenes.length ≤ 4 ∧ sl.params.length = sl.kind.params.length ∧
     (parsePreset true (presetImage c (List.replicate 16 65))).isSome = true) ∧
    (let g := liveGlobals r0
     g.ins.length = 8 ∧ g.outs.length = 8 ∧ g.ctrlMap.length = 8 ∧ parseGlobals (globalsImage g) = (g, 0)) ∧
    (∀ occ ∈ [(0 : Nat), 4, 255], let e : MapEntry := ⟨.cc 119, .reverb, occ, 1, -32768, 32767⟩
     7 < 8 ∧ e.kind.params[e.param]? = some (.continuous, 0, 1023) ∧ e.occ < 256 ∧ 119 < 120 ∧ e.kind ≠ .gate ∧
     -32768 ≤ e.min ∧ e.min ≤ 32767 ∧ -32768 ≤ e.max ∧ e.max ≤ 32767) ∧
    (let e : MapEntry := ⟨.p1, .gate, 5, 0, 65535, 0⟩
     0 < 8 ∧ e.kind.params[e.param]? = some (.continuous, 0, 65535) ∧ e.occ < 256 ∧ e.kind = .gate ∧
     0 ≤ e.min ∧ e.min ≤ 65535 ∧ 0 ≤ e.max ∧ e.max ≤ 65535) := by decide +kernel

/-! ### Recalls -/

theorem witness_RecallAndSceneTaken :
    Room .foot r0 ∧ (3 < (4 : Byte).toNat) ∧ 2 < (3 : Byte).toNat ∧ 1 < (2 : Byte).toNat ∧
    ((3 : Byte).toNat ≤ 3 ∧ (2 : Byte).toNat ≤ 2 ∧ (1 : Byte).toNat ≤ 1) ∧ r0.pst.scanning = true ∧
    (Room .foot stored ∧ stored.pst.scanning = false ∧ entry stored.pst (254 : Byte).toNat = none ∧
      entry stored.pst (255 : Byte).toNat = some ⟨0, 0, 1, 52⟩ ∧ stored.pst.op = none ∧ stored.pst.reads = [] ∧
      stored.rcu.flight = none ∧ activeBuf stored = none) ∧
    (∀ edited ∈ [false, true],
      let s : State := { stored with tne := { run0.tne with bufA := { state := .active, chain := { preset := 255, gen := 1, edited := edited } } } }
      s.rcu.state = .idle ∧ activeBuf s = some .a ∧ (buf s .a).chain.preset = (255 : Byte).toNat ∧ (buf s .a).chain.gen = 1 ∧
      (buf s .a).chain.edited = edited) ∧
    (∀ st ∈ [RcuState.armed, .relays, .loading], ∀ o ∈ [Origin.link .main 3, .flip 63 5],
      let old : Recall := { preset := 0, scene := 0, origin := o }
      let s : State := { stored with
        tne := { run0.tne with bufB := { state := .ready } }, rcu := { state := st, flight := some old, build := .b }
        swc := { flips := [(63, { inFlight := [5] })] } }
      s.rcu.flight = some old ∧ old.joined = none ∧ old.origin = o ∧ s.rcu.state = st ∧ (buf s s.rcu.build).state = .ready ∧
      s.lma.requests = none ∧ 5 ∈ (flipAt s 63).inFlight) ∧
    (let s : State := { stored with rcu := { state := .fading } }
     s.rcu.state = .fading ∧ s.rcu.pending = none) ∧
    (let s := playing []
     s.rcu.flight = none ∧ activeBuf s = some .a ∧ (buf s .a).chain.scenes.length ≤ (1 : Byte).toNat ∧
     (0 : Byte).toNat < (buf s .a).chain.scenes.length) ∧
    (let r : Recall := { preset := 0, scene := 0, origin := .boot }
     let s : State := { stored with rcu := { state := .fetching, flight := some r } }
     s.rcu.flight = some r ∧ s.rcu.pending = none ∧ s.rcu.state = .fetching ∧ r.joined = none) := by unfold Room; decide +kernel

/-- A recall in ARMED whose delay slot has one page and asks, in its second scene, for 1 ms or for 500 ms. -/
def armedWith (ms : Int) : State :=
  { run0 with
    tne := { run0.tne with bufA := { state := .ready, chain := {
      slots := [{ kind := .delay, params := [1, 0, 1, 0, 0, 0], run := [1, 0, 1, 0, 0, 0], voice := { region := some 0 } }]
      scenes := [{}, { overrides := [⟨0, 0, ms⟩] }] } } }
    lma := { free := (List.range 256).drop 1, regions := [(0, some ⟨.slot .a 0, [0]⟩)] }
    rcu := { state := .armed, flight := some { preset := 0, scene := 0, origin := .boot } } }

theorem witness_RecallAndSceneTaken_armed :
    ∀ ms ∈ [(1 : Int), 500], let s := armedWith ms
      ∃ r : Recall, s.rcu.flight = some r ∧ s.rcu.pending = none ∧ s.rcu.state = .armed ∧ s.rcu.swapped = false ∧ r.joined = none ∧
        (1 : Byte).toNat < (buf s s.rcu.build).chain.scenes.length ∧ (buf s s.rcu.build).chain.relays = none ∧
        (∀ sc ∈ (buf s s.rcu.build).chain.scenes, sc.relays = none) ∧ (next (.scene (m [1])) s).rcu.flight.map (·.notes) = some (if ms = 1 then 0 else 8) := by
  intro ms h
  refine ⟨{ preset := 0, scene := 0, origin := .boot }, rfl, rfl, rfl, rfl, rfl, by decide +revert, rfl, by decide +revert, ?_⟩
  rcases List.mem_pair.mp h with rfl | rfl <;> decide +kernel

/-- R190 and R158: RECALL 5, then READ_PRESET 5 behind the step of DELETE 5. As the step ends the recall fails first. -/
theorem test_reads_fail_in_order :
    let e : DirEntry := ⟨0, 0, 1, 52⟩
    let s : State := { run0 with
      pst := { scanning := false, dir := [(5, some e)], sectors := [(0, ⟨.opened, 52, 0, 52⟩)]
               queue := [⟨.delete 5, none, false⟩], job := some (.deleting 5 e), op := some (.program 0 [0xF8]) } }
    let s := next (.readPreset (m [0, 5])) (next (.recall (m [5, 0, 2, 0, 0, 0])) s)
    let t := next (.programStepComplete true) s
    t.lkc.main.entries.map (fun e => e.reply.map (fun p => (p.seq, p.code))) = [some (0, .notFound), some (1, .notFound)] ∧
    s.pst.reads.length = 2 ∧ t.rcu.state = .idle := by decide +kernel

/-- The ACTIVE chain with two scenes and one item waiting for the boundary. -/
def waiting (i : BoundaryItem) : State :=
  let s := playing [{ kind := .level, params := [1023], run := [0] }]
  { s with
    tne := { s.tne with bufA := { s.tne.bufA with chain := { s.tne.bufA.chain with scenes := [{}, { bypass := 1, ramp := 8192 }] } } }
    rcu := { waiting := [i] } }

theorem witness_BoundaryScenesApply :
    (let s := waiting (.scene 1 (.binding 0) none)
     s.aup.clock = .running ∧ s.tne.blockPos = 0 ∧ activeBuf s = some .a ∧ s.rcu.waiting = .scene 1 (.binding 0) none :: [] ∧
     1 < (buf s .a).chain.scenes.length ∧
     ((buf s .a).chain.scenes.getD 1 {}).relays = none ∧ 0 < ((buf s .a).chain.scenes.getD 1 {}).ramp ∧
     mapHolds s.tne (buf s .a).chain.slots 0 0 = none ∧ (∀ o ∈ ((buf s .a).chain.scenes.getD 1 {}).overrides, ¬(o.slot = 0 ∧ o.param = 0))) ∧
    (r0.aup.clock ≠ .running ∧ ({ run0 with tne := { run0.tne with blockPos := 1 } } : State).tne.blockPos ≠ 0) ∧
    (let s := waiting (.scene 2 (.binding 0) none)
     s.rcu.waiting = .scene 2 (.binding 0) none :: [] ∧ (buf s .a).chain.scenes.length ≤ 2) ∧
    (let s := waiting (.scene 0 (.binding 0) none)
     let s : State := { s with tne := { s.tne with bufA := { s.tne.bufA with chain := { s.tne.bufA.chain with scenes := [{ relays := some ⟨0x80, 8⟩ }] } } } }
     s.rcu.waiting = .scene 0 (.binding 0) none :: [] ∧ 0 < (buf s .a).chain.scenes.length ∧
     ((buf s .a).chain.scenes.getD 0 {}).relays = some ⟨0x80, 8⟩) ∧
    (playing []).rcu.waiting = [] := by decide +kernel

/-- Scene-only recalls of a scene the chain holds and of one past its last, of each kind of origin. -/
theorem witness_BoundaryScenesApply_only :
    ∀ o ∈ [Origin.binding 0, .momentary 0, .flip 63 5], ∀ l ∈ [[], [5]], ∀ n ∈ [1, 2],
      let r : Recall := { preset := 0, scene := n, origin := o }
      let s : State := { waiting (.sceneOnly r) with swc := { flips := [(63, { inFlight := l })] } }
      (s.aup.clock = .running ∧ s.tne.blockPos = 0 ∧ activeBuf s = some .a ∧ s.rcu.waiting = .sceneOnly r :: [] ∧ r.boot = false) ∧
      decide (r.scene < (buf s .a).chain.scenes.length) = decide (n = 1) ∧ r.origin.emptiesStack = decide (o ≠ .momentary 0) ∧
      (flipAt s 63).inFlight = l := by decide +kernel

/-- A buffer with one scene, its tempo and its relay set given, whose last override of a parameter is the one that counts. -/
def sceneOnly (given : Option Nat) (rel : Option RelaySet) (mode : TuneMode) (sets : Bool) : State :=
  let s := waiting (.sceneOnly { preset := 0, scene := 0, origin := .binding 0 })
  let sc : Scene := { relays := rel, overrides := [⟨0, 0, 5⟩, ⟨0, 0, 1023⟩] }
  { s with
    tne := { s.tne with bufA := { s.tne.bufA with chain := { s.tne.bufA.chain with scenes := [sc], tempo := given } } }
    tun := { mode := mode }
    tmp := { presetSets := sets } }

/-- Tune mode on and off and leaving on a recall or not, a tempo that presets set and none, a relay set and none. -/
theorem witness_BoundaryScenesApply_effects :
    ∀ on ∈ [false, true], ∀ exits ∈ [false, true], ∀ sets ∈ [false, true], ∀ given ∈ [none, some 3000], ∀ rel ∈ [none, some (⟨0x80, 8⟩ : RelaySet)],
      let s := sceneOnly given rel { on := on, exitOnRecall := exits } sets
      s.tun.mode.on = on ∧ s.tun.mode.exitOnRecall = exits ∧ s.tmp.presetSets = sets ∧ (buf s .a).chain.tempo = given ∧
      ((buf s .a).chain.scenes.getD 0 {}).relays = rel ∧
      (buf (next .sceneOnlyRecall s) .a).chain.slots.map (·.run) = [[1023]] := by decide +kernel

/-- A recall in flight into buffer B with buffer A playing. -/
def recalling (u : Rcu) (a b : Buffer) : State :=
  { run0 with
    tne := { run0.tne with bufA := a, bufB := b }
    rcu := { u with flight := some { preset := 0, scene := 0, fade := some 0, origin := .boot }, build := .b } }

/-- R146: six spill slots of wet gain 0 leave at the midpoint beside a chain of 1,648 units. The fifth admission frees the oldest tail at
once, whose cost stays counted, so the sixth slot is not offered. -/
theorem test_midpoint_counts_cut_tails :
    let sl : Slot := { kind := .delay, spill := true, params := [1, 0, 1, 0, 0, 0], run := [1, 0, 1, 0, 0, 0], voice := { wet := Ramp.at 0 } }
    let slots := (List.range 6).map (fun i => { sl with voice := { sl.voice with region := some i } })
    let s : State := { r0 with
      tne := { bufA := { state := .outgoing, chain := { slots := slots } } }
      lma := { free := (List.range 256).drop 6, regions := (List.range 6).map (fun i => (i, some ⟨.slot .a i, [i]⟩)) }
      rcu := { flight := some { preset := 0, scene := 0, origin := .boot } } }
    let t := detachWithin 1648 .a s
    (buf t .a).chain.slots.map (·.stub) = [true, true, true, true, true, false] ∧ t.tne.tails.length = 4 ∧ t.tne.remnants = [] ∧
    t.rcu.flight.map (·.notes) = some noteTailsCut := by decide +kernel

/-- Above the budget by 4, 80, 84 and 416 units, with two tails of 80 units each to mark, none marked yet: the first mark reaches it, both do, and
none, so that the fade is a dip; with an ACTIVE buffer and without one; and a release that waits. -/
theorem witness_FadeMoves_over :
    (∀ x ∈ [([Kind.reverb, .amp, .eq, .level], 4), ([.reverb, .amp, .mod, .drive], 80), ([.reverb, .amp, .mod, .drive, .trim], 84),
        ([.reverb, .reverb, .reverb, .eq], 416)],
      let s := recalling { fadeDue := true } { state := .active, chain := { slots := List.replicate 2 { kind := .reverb } } }
        { state := .ready, chain := { slots := List.replicate 2 { kind := .reverb } ++ x.1.map (fun k => { kind := k }) } }
      let s : State := { s with tne := { s.tne with tails := [{ tail0 with marked := false }, { tail0 with index := 4, marked := false }] } }
      s.aup.clock = .running ∧ s.tne.blockPos = 0 ∧ s.rcu.fadeDue = true ∧ activeBuf s = some .a ∧ s.tne.tails.length ≤ 4 ∧
      (∀ tl ∈ s.tne.tails, tl.marked = false) ∧
      slotsCost (buf s s.rcu.build).chain.slots + slotsCost (buf s .a).chain.slots + tailsCost s.tne = 2048 + x.2) ∧
    (let s := recalling { fadeDue := true } {} { state := .ready, chain := { slots := List.replicate 7 { kind := .reverb } } }
     activeBuf s = none ∧ 2048 < slotsCost (buf s s.rcu.build).chain.slots + 0 + tailsCost s.tne) ∧
    (∀ st ∈ [BufState.empty, .active],
     let s := recalling { state := .fading, swapped := false } { state := st } { state := .ready }
     let s : State := { s with tne := { s.tne with release := true } }
     s.tne.release = true ∧ s.aup.clock = .running ∧ s.tne.blockPos = 0) := by decide +kernel

/-- A recall of preset 255 waiting at a fade's end, where its preset has gone, has just become ACTIVE (with a joined scene the chain has and one it
has not), and has been written anew. -/
theorem witness_FadeMoves_pending :
    let fading := fun (p : Recall) (dir : Mem (Option DirEntry)) (gen : Nat) =>
      let s := recalling { state := .fading, swapped := true, pending := some p } { state := .outgoing }
        { state := .active, chain := { preset := 255, gen := gen, fade := Ramp.at 8192, scenes := [{}, {}] } }
      ({ s with pst := { scanning := false, dir := dir } } : State)
    let e : DirEntry := ⟨63, 4064, 16777214, 32⟩
    ∀ sc ∈ [1, 2], let p : Recall := { preset := 255, scene := sc, origin := .link .main 1, joined := some ⟨none, 0⟩ }
      (let s := fading p [] 5
       s.aup.clock = .running ∧ s.tne.blockPos = 0 ∧ s.rcu.state = .fading ∧ s.rcu.swapped = true ∧ s.rcu.joinedDue = false ∧
       (buf s s.rcu.build).state = .active ∧ (buf s (otherBuf s.rcu.build)).state = .outgoing ∧ (buf s s.rcu.build).chain.fade.count = 0 ∧
       s.rcu.pending = some p ∧ s.pst.scanning = false ∧ entry s.pst 255 = none) ∧
      (∀ gen ∈ [5, 16777214], let s := fading p [(255, some e)] gen
       entry s.pst 255 = some e ∧ (buf s .b).chain.gen = gen ∧ (buf s .b).chain.scenes.length = 2 ∧ s.pst.op = none ∧ s.pst.reads = []) := by
  decide +kernel

/-- The swap and the end of the boot recall, which has no earlier buffer. -/
theorem witness_FadeMoves_boot :
    (let s := recalling { state := .fading } {} { state := .ready }
     s.rcu.state = .fading ∧ s.rcu.swapped = false ∧ s.tne.release = false ∧ (buf s s.rcu.build).state = .ready ∧
     (buf s (otherBuf s.rcu.build)).state = .empty ∧ s.rcu.dip = false) ∧
    (∀ presets ∈ [false, true], ∀ tempo ∈ [none, some 400],
     let s := recalling { state := .fading, swapped := true } {} { state := .active, chain := { fade := Ramp.at 8192, tempo := tempo } }
     let s : State := { s with tmp := { s.tmp with presetSets := presets } }
     s.rcu.state = .fading ∧ s.rcu.swapped = true ∧ s.rcu.joinedDue = false ∧ (buf s s.rcu.build).state = .active ∧
     buf s (otherBuf s.rcu.build) = {} ∧ (buf s s.rcu.build).chain.fade.count = 0 ∧ s.rcu.pending = none ∧
     s.rcu.flight.map (·.origin) = some .boot) := by decide +kernel

theorem witness_FadeMoves :
    (let s := recalling { fadeDue := true } { state := .active, chain := { slots := List.replicate 3 { kind := .reverb } } }
       { state := .ready, chain := { slots := List.replicate 3 { kind := .reverb } ++ [{ kind := .drive }, { kind := .eq }, { kind := .gate }] } }
     s.aup.clock = .running ∧ s.tne.blockPos = 0 ∧ s.rcu.fadeDue = true ∧
     slotsCost (buf s s.rcu.build).chain.slots + (match activeBuf s with | some bid => slotsCost (buf s bid).chain.slots | none => 0) +
       tailsCost s.tne = 2048) ∧
    (let s := recalling { state := .fading } { state := .active } { state := .ready }
     s.rcu.fadeDue = false ∧ s.rcu.state = .fading ∧ s.rcu.swapped = false ∧ s.tne.release = false ∧
     (buf s s.rcu.build).state = .ready ∧ (buf s (otherBuf s.rcu.build)).state = .active ∧ s.rcu.dip = false) ∧
    (let s := recalling { state := .fading, dip := true } { state := .active, chain := { fade := Ramp.at 0 } } { state := .ready }
     s.rcu.dip = true ∧ (buf s (otherBuf s.rcu.build)).chain.fade.v = 0 ∧ (buf s (otherBuf s.rcu.build)).chain.fade.count = 0) ∧
    (let s := recalling { state := .fading, swapped := true } { state := .outgoing } { state := .active, chain := { fade := Ramp.at 8192 } }
     s.rcu.state = .fading ∧ s.rcu.swapped = true ∧ s.rcu.joinedDue = false ∧ (buf s s.rcu.build).state = .active ∧
     (buf s (otherBuf s.rcu.build)).state = .outgoing ∧ (buf s s.rcu.build).chain.fade.count = 0 ∧ s.rcu.pending = none ∧
     s.lma.regions = []) := by decide +kernel

/-- Buffer A with four slots that spill beside one BYPASSED, and a recall of buffer B at its swap or its dip's midpoint. -/
def leaving (dip : Bool) (tails : Nat) (remnants : Mem (Option Remnant)) : State :=
  let sl : Slot := { kind := .delay, spill := true, params := [1, 0, 1, 0, 0, 0], run := [1, 0, 1, 0, 0, 7], voice := { wet := Ramp.at 4000 } }
  let slots := [Bypass.engaged, .trailing, .trailing, .trailing, .bypassed].zipIdx.map (fun x =>
    { sl with bypass := x.1, falling := decide (x.2 = 2), hold := if x.2 = 1 then 5 else 0, voice := { sl.voice with region := some x.2 } })
  let s := recalling { state := .fading, dip := dip } { state := .active, chain := { slots := slots, fade := Ramp.at 0, edited := true } }
    { state := .ready, chain := { slots := List.replicate 6 { kind := .reverb } } }
  { s with
    tne := { s.tne with
      tails := (List.range tails).map (fun k => { index := 3 - k, preset := 1, kind := .delay, voice := { region := some (10 + k) }, hold := 5, phase := .ringing })
      remnants := remnants }
    lma := { regions := (List.range 5).map (fun i => (i, some ⟨.slot .a i, [i]⟩)) ++
      (List.range tails).map (fun k => (10 + k, some ⟨.tail (3 - k), [10 + k]⟩)) } }

/-- A slot of each phase with room in the tail set; with four tails and a remnant place free or none; a swap, a midpoint, and a swap with no
buffer left behind. At the midpoint the budget of 2,048 units takes one tail of 80 beside six REVERB slots. -/
theorem witness_SwapLeavesTails :
    (∀ dip ∈ [false, true], let s := leaving dip 3 []
      s.aup.clock = .running ∧ s.tne.blockPos = 0 ∧ s.rcu.flight.isSome ∧ s.rcu.state = .fading ∧ s.rcu.swapped = false ∧ s.tne.release = false ∧
      (buf s s.rcu.build).state = .ready ∧ (buf s (otherBuf s.rcu.build)).state = .active ∧ s.rcu.dip = dip ∧ s.tne.tails.length = 3 ∧
      (buf s .a).chain.fade.v = 0 ∧ (buf s .a).chain.fade.count = 0 ∧ s.lma.regions.map (·.1) = [0, 1, 2, 3, 4, 10, 11, 12]) ∧
    ((buf (next .midpoint (leaving true 0 [])) .b).state = .active ∧ (next .midpoint (leaving true 0 [])).tne.tails.length = 1 ∧
      ((next .swap (leaving false 0 [])).tne.tails.map (fun tl => (tl.index, tl.phase, tl.hold))) =
        [(0, .ringing, 336), (1, .ringing, 5), (2, .decay, 0), (3, .decay, 0)]) ∧
    (let places : Mem (Option Remnant) := (List.range 4).map (fun k => (k, some { kind := .delay, voice := {} }))
     (leaving false 4 places).tne.tails.length = 4 ∧ (∀ k : Nat, k < 4 → Mem.get none places k ≠ none) ∧
     (∃ k : Nat, k < 4 ∧ Mem.get none (leaving false 4 (places.drop 1)).tne.remnants k = none)) ∧
    (let s := recalling { state := .fading } {} { state := .ready }
     (buf s (otherBuf s.rcu.build)).state = .empty ∧ s.rcu.dip = false) := by decide +kernel

/-! ### Preset Store and settings -/

theorem witness_StoreRequestsQueue :
    (Room .main r0 ∧ MayEdit .main r0 ∧ r0.pst.scanning = true ∧ r0.pst.lockKey = false) ∧
    (Room .main stored ∧ MayEdit .main stored ∧ stored.pst.scanning = false ∧ stored.pst.queue.length < 4) ∧
    (let s : State := { stored with pst := { stored.pst with queue := List.replicate 4 ⟨.saveSettings, none, false⟩ } }
     4 ≤ s.pst.queue.length) ∧
    (∀ on ∈ [false, true], let s : State := { stored with pst := { stored.pst with lockKey := true, scanning := on } }
      s.pst.lockKey = true ∧ s.pst.scanning = on) ∧
    ((List.replicate 240 (0 : Byte)).length ≤ 240 ∧ (3 : Byte).toNat ≤ 3 ∧ (2 : Byte).getLsbD 0 = false ∧ (1 : Byte).getLsbD 1 = false) ∧
    (let s : State := { stored with lkc := { stageMain := some (255, List.replicate 769 0) } }
     stageOf s .main = some (255, List.replicate 769 0) ∧ 1008 < 769 + 240 ∧ 768 + 240 ≤ 1008) := by
  unfold Room MayEdit; decide +kernel

/-- A live record of preset 255 in sector 63, whose length is `n`. -/
def ent (n : Nat) : DirEntry := ⟨63, 4096 - n, 16777214, n⟩

/-- A store past its scan with that record, and more fields set. -/
def storing (f : Pst → Pst) : State :=
  { r0 with pst := f { scanning := false, dir := [(255, some (ent 32))], sectors := [(63, ⟨.full, 32, 4064, 4096⟩)] } }

/-- Buffer A ACTIVE with one LEVEL slot, sector 0 OPEN from an offset on, and one request in the queue. -/
def opening (next : Nat) (op : StoreOp) : State :=
  { playing [{ kind := .level, params := [0], run := [0] }] with
    pst := { scanning := false, queue := [⟨op, none, false⟩], dir := [(255, some (ent 32))]
             sectors := [(0, ⟨.opened, 0, 0, next⟩), (63, ⟨.full, 32, 4064, 4096⟩)] } }

/-- What every begin of a write asks of the store. -/
def beginsAt (next : Nat) (s : State) : Prop :=
  s.pst.scanning = false ∧ s.pst.reads = [] ∧ s.pst.suspended = none ∧ s.pst.op = none ∧ s.pst.job = none ∧ s.pst.reclaim = none ∧
  1 < erasedCount s.pst ∧ openSector s.pst = some (0, ⟨.opened, 0, 0, next⟩) ∧ s.pst.nextGen + 2 ≤ 16777215

theorem witness_StoreStepsMove_begin :
    (let s := opening 4000 (.save 255 1 [65])
     beginsAt 4000 s ∧ editBuf s = some .a ∧ s.pst.lock.holds 255 = false ∧ slotsCost (buf s .a).chain.slots ≤ 1280 ∧
     (let image := presetImage (buf s .a).chain [65]
      liveBytes s.pst + (16 + image.length) ≤ 196608 + ((entry s.pst 255).map DirEntry.len).getD 0 ∧ 4000 + 16 + image.length ≤ 4096)) ∧
    (let image := presetImage (buf (opening 0 .saveSettings) .a).chain [65]
     let s := opening 4000 (.saveRecord 0 image)
     beginsAt 4000 s ∧ (∃ c, parsePreset true image = some (c, false) ∧ slotsCost c.slots ≤ 1280) ∧ s.pst.lock.holds 0 = false ∧
     liveBytes s.pst + (16 + image.length) ≤ 196608 + ((entry s.pst 0).map DirEntry.len).getD 0 ∧ 4000 + 16 + image.length ≤ 4096) ∧
    (let s := opening 3072 .saveSettings
     beginsAt 3072 s ∧ s.pst.settingsLock = false ∧ 3072 + 16 + (globalsImage (liveGlobals s)).length ≤ 4096 ∧
     liveBytes s.pst + 32 + (globalsImage (liveGlobals s)).length + (bindingsImage s.swc.bindings).length ≤ 196608) ∧
    (let s := opening 3892 (.setLock 1 6 1 1)
     beginsAt 3892 s ∧ ((1 : Byte).toNat ≤ 1 ∧ (6 : Byte).toNat ≤ 6) ∧ s.pst.lockKey = false ∧ liveBytes s.pst + 204 ≤ 196608 ∧
     entry s.pst 256 = none ∧ 3892 + 204 ≤ 4096 ∧ (globalsImage {}).length = 188 ∧
     entry { s.pst with dir := [(256, some (ent 204))] } 256 = some (ent 204)) ∧
    (let s := opening 3892 (.setLock 1 6 1 1)
     let s : State := { s with pst := { s.pst with op := some (.read .job (ent 204)), job := some .readGlobals } }
     s.pst.scanning = false ∧ s.pst.reads = [] ∧ s.pst.suspended = none ∧ s.pst.queue = [⟨.setLock 1 6 1 1, none, false⟩] ∧
     s.pst.op = some (.read .job (ent 204)) ∧ s.pst.job = some .readGlobals ∧ (ent 204).len = 204 ∧
     openSector s.pst = some (0, ⟨.opened, 0, 0, 3892⟩)) := by
  unfold beginsAt
  refine ⟨by decide +kernel, ⟨by decide +kernel, ⟨_, rfl, by decide +kernel⟩, by decide +kernel⟩, by decide +kernel, by decide +kernel,
    by decide +kernel⟩

/-- What every refused begin asks of the store, for the request at its head. -/
def refusing (op : StoreOp) (s : State) : Bool :=
  decide (s.pst.scanning = false ∧ s.pst.reads = [] ∧ s.pst.suspended = none ∧ s.pst.op = none ∧ s.pst.job = none ∧ s.pst.reclaim = none ∧
    2 < erasedCount s.pst ∧ s.pst.queue = [⟨op, none, false⟩] ∧ ∀ q ∈ ([⟨.delete 3, none, false⟩] : List StoreReq), q.held = false)

/-- The code a request is refused with as it begins alone in the queue; it then leaves the queue and nothing else changes. -/
def refusedWith (s : State) : Option Code :=
  match s.pst.queue, exec .requestBegin s with
  | r :: _, .next t => if t = { s with pst := { s.pst with queue := [] } } then refusal s r.op (gather s r.op) else none
  | _, _ => none

/-- A store with a number of live bytes and a next generation. -/
def brimming (live gen : Nat) (op : StoreOp) : State :=
  let s := opening 0 op
  { s with pst := { s.pst with nextGen := gen, sectors := [(0, ⟨.opened, live, 0, 0⟩)], dir := [(3, some ⟨0, 0, 1, 32⟩)] } }

/-- Five REVERB slots: 1,600 units. -/
def heavy : Chain := { slots := List.replicate 5 { kind := .reverb, params := [0, 0, 0] } }

/-- Each check at the first state that fails it, and the bounds of space and of generations. -/
theorem witness_StoreBeginRefuses :
    (∀ x ∈ [((let s := opening 0 (.save 0 0 []); ({ s with tne := {} } : State)), Code.notReady),
        ((let s := opening 0 (.save 0 0 []); { s with tne := { bufA := { state := .active, chain := heavy } } }), .overBudget),
        (opening 0 (.save 0 2 []), .badField), (opening 0 (.delete 0), .notFound),
        (opening 0 (.saveRecord 0 (presetImage heavy [])), .overBudget), (opening 0 (.saveRecord 0 []), .badField),
        (opening 0 (.setLock 1 7 1 1), .badField), (brimming 196608 16777214 (.setLock 0 0 0 0), .storeFull),
        (brimming 196405 16777214 (.setLock 0 0 0 0), .storeFull), (brimming 0 16777215 (.setLock 0 0 0 0), .storeFull),
        (brimming 0 16777214 .saveSettings, .storeFull), (brimming 196641 1 (.delete 3), .storeFull)],
      refusing ((x.1.pst.queue.map (·.op)).headD .saveSettings) x.1 = true ∧ refusedWith x.1 = some x.2) ∧
    refusedWith (brimming 196404 16777214 (.setLock 0 0 0 0)) = none ∧ refusedWith (brimming 196640 1 (.delete 3)) = none := by
  decide +kernel

/-- The guards: a protected preset, the settings lock and the LOCK key. -/
theorem witness_StoreBeginRefuses_locked :
    ∀ op ∈ [StoreOp.save 248 0 [], .saveRecord 255 [], .delete 255, .saveSettings, .setLock 2 7 2 2],
      let s := opening 0 op
      let s : State := { s with pst := { s.pst with lock := { size := 1 }, settingsLock := true, lockKey := true } }
      refusing op s = true ∧ s.pst.lock.holds 248 = true ∧ s.pst.lock.holds 247 = false ∧
      refusedWith s = some (match op with | .setLock .. => .lockHeld | _ => .locked) := by decide +kernel

/-- A copy at its VALID marker, of a preset that the ACTIVE buffer holds with the original's generation or with another. -/
theorem witness_StoreStepsMove_copy :
    ∀ gen ∈ [16777214, 4],
      let w : Writer := ⟨255, List.replicate 16 0, 62, 0, 7, .valid⟩
      let s := storing (fun p => { p with
        reclaim := some ⟨63, some ⟨255, ent 32, some w⟩⟩, op := some (.program (4096 * 62 + 0) [0xFC])
        sectors := [(62, ⟨.opened, 0, 0, 32⟩), (63, ⟨.reclaim, 32, 4064, 4096⟩)] })
      let s : State := { s with tne := { s.tne with bufA := { state := .active, chain := { preset := 255, gen := gen } } } }
      s.pst.job = none ∧ s.pst.reclaim = some ⟨63, some ⟨255, ent 32, some w⟩⟩ ∧ w.step = .valid ∧
      s.pst.op = some (.program (4096 * w.sector + w.off) [0xFC]) ∧ entry s.pst w.key = some (ent 32) ∧ w.key < 256 ∧
      activeBuf s = some .a ∧ ((buf s .a).chain.gen = (ent 32).gen ↔ gen = 16777214) := by decide +kernel

/-- A write of a record of 300 bytes of body, at a step, with an operation in progress. -/
def writes (step : WriteStep) (op : FlashOp) : State :=
  storing (fun p => { p with
    job := some (.writing ⟨255, List.replicate 300 0, 62, 0, 7, step⟩ [] false), op := some op
    queue := [⟨.saveRecord 255 [], some ⟨.foot, 3⟩, false⟩], nextGen := 7 })

theorem witness_StoreStepsMove_write :
    ∀ s ∈ [writes .header (.program (4096 * 62 + 0) ([0xFE] ++ keyBytes 255 ++ bytes24 7 ++ bytes16 (16 + 300) ++ List.replicate 8 0xFF)),
        writes (.body 0) (.program (4096 * 62 + 0 + 16 + 0) (((List.replicate 300 0).drop 0).take 256)),
        writes (.body 256) (.program (4096 * 62 + 0 + 16 + 256) (((List.replicate 300 0).drop 256).take 256)),
        writes .valid (.program (4096 * 62 + 0) [0xFC]),
        writes (.supersede (ent 32)) (.program (4096 * (ent 32).sector + (ent 32).off) [0xF8])],
      s.pst.scanning = false ∧ s.pst.reads = [] ∧ s.pst.suspended = none ∧ s.pst.reclaim = none ∧ 3 < erasedCount s.pst ∧ (255 < 256) ∧
      s.pst.queue = [⟨.saveRecord 255 [], some ⟨.foot, 3⟩, false⟩] ∧ entry s.pst 255 = some (ent 32) ∧
      (0 + 256 < (List.replicate 300 (0 : Byte)).length ∧ (List.replicate 300 (0 : Byte)).length ≤ 256 + 256 ∧
        List.replicate 300 (0 : Byte) ≠ []) ∧
      entry { s.pst with dir := [] } 255 = none := by decide +kernel

/-- A recall reads preset 255, whose body is the image of a chain of one LEVEL slot. -/
def arriving : State :=
  let image := presetImage { slots := [{ kind := .level, params := [0], run := [0] }] } []
  storing (fun p => { p with
    flash := Mem.setMany 0xFF [] (4096 * 63 + 1016) image
    op := some (.read (.recall 5) ⟨63, 1000, 3, 16 + image.length⟩) })

theorem witness_StoreStepsMove_read :
    (let r : Recall := { preset := 255, scene := 0, quant := some false, origin := .boot }
     let s : State := { arriving with rcu := { state := .fetching, readNo := 5, flight := some r } }
     s.pst.scanning = false ∧ s.pst.reads = [] ∧ s.pst.suspended = none ∧ s.pst.job = none ∧ s.pst.reclaim = none ∧
     s.rcu.state = .fetching ∧ s.rcu.readNo = 5 ∧ s.rcu.flight = some r ∧ r.joined = none ∧ r.quant = some false ∧
     (let e : DirEntry := ⟨63, 1000, 3, 16 + (presetImage { slots := [{ kind := .level, params := [0], run := [0] }] } []).length⟩
      s.pst.op = some (.read (.recall 5) e) ∧
      (parsePreset false ((List.range (e.len - 16)).map (fun i => Mem.get 0xFF s.pst.flash (4096 * e.sector + e.off + 16 + i)))).map
        (fun p => let chain := setupChain s.tne s.lma s.tmp.beat r.scene { p.1 with preset := r.preset, gen := e.gen }
          (chain.slots.map (·.kind), chain.relays, (chain.scenes.getD chain.scene {}).relays)) = some ([.level], none, none))) ∧
    (let s := storing (fun p => { p with
       op := some (.read .copy (ent 32)), reclaim := some ⟨63, some ⟨255, ent 32, none⟩⟩, sectors := [(0, ⟨.opened, 0, 0, 4064⟩)] })
     s.pst.op = some (.read .copy (ent 32)) ∧ s.pst.job = none ∧ 16 ≤ (ent 32).len ∧
     s.pst.reclaim = some ⟨63, some ⟨255, ent 32, none⟩⟩ ∧ openSector s.pst = some (0, ⟨.opened, 0, 0, 4064⟩) ∧ 4064 + (ent 32).len ≤ 4096) :=
  ⟨⟨rfl, rfl, rfl, rfl, rfl, rfl, rfl, rfl, rfl, rfl, by decide +kernel⟩, by decide +kernel⟩

theorem witness_StoreStepsMove :
    (let s := storing (fun p => { p with queue := [⟨.delete 255, none, false⟩] })
     s.pst.scanning = false ∧ s.pst.reads = [] ∧ s.pst.suspended = none ∧ 2 < erasedCount s.pst ∧
     s.pst.queue = [⟨.delete 255, none, false⟩] ∧ s.pst.reclaim = none ∧ s.pst.op = none ∧ s.pst.job = none ∧
     entry s.pst 255 = some (ent 32) ∧ s.pst.lock.holds 255 = false ∧ liveBytes s.pst ≤ 196608 ∧ entry s.pst 0 = none ∧
     2 < erasedCount (kill (ent 32) s.pst)) ∧
    (let s := storing (fun p => { p with lock := { size := 1 } })
     s.pst.lock.holds 255 = true ∧ s.pst.lock.holds 248 = true ∧ s.pst.lock.holds 247 = false) ∧
    (let s := storing (fun p => { p with job := some (.deleting 255 (ent 32)), op := some (.program (4096 * 63 + 4064) [0xF8]) })
     s.pst.job = some (.deleting 255 (ent 32)) ∧ s.pst.op = some (.program (4096 * (ent 32).sector + (ent 32).off) [0xF8])) ∧
    (let s := storing (fun p => { p with op := some (.read (.link ⟨.foot, 0⟩) (ent 32)) })
     s.pst.op = some (.read (.link ⟨.foot, 0⟩) (ent 32)) ∧ s.pst.job = none ∧ s.pst.reclaim = none) ∧
    (let s := storing (fun p => { p with
       op := some (.erase 62), reclaim := some ⟨62, none⟩
       sectors := (List.range 60).map (fun k => (k, ⟨.full, 0, 4096, 4096⟩)) ++ [(62, ⟨.reclaim, 0, 4096, 4096⟩)] })
     s.pst.op = some (.erase 62) ∧ s.pst.job = none ∧ s.pst.queue = [] ∧ s.pst.reclaim = some ⟨62, none⟩ ∧
     (sector s.pst 62).state = .reclaim ∧ 1 < erasedCount s.pst) ∧
    (let s := storing (fun p => { p with reclaim := some ⟨63, none⟩, nextGen := 16777214 })
     s.pst.op = none ∧ s.pst.queue = [] ∧ s.pst.reclaim = some ⟨63, none⟩ ∧ liveOf s.pst 63 = [(255, ent 32)] ∧
     s.pst.nextGen < 16777215 ∧ 0 < erasedCount s.pst) ∧
    (let s := storing (fun p => { p with reclaim := some ⟨62, none⟩ })
     s.pst.reclaim = some ⟨62, none⟩ ∧ liveOf s.pst 62 = []) := by decide +kernel

/-- A write at a step, for a request and of a record with a key and a body, with the records that follow it. -/
def writing (op : StoreOp) (key : Nat) (body : List Byte) (step : WriteStep) (f : FlashOp) (rest : List (Nat × List Byte)) : State :=
  storing (fun p => { p with
    job := some (.writing ⟨key, body, 62, 0, 7, step⟩ rest false), op := some f, queue := [⟨op, some ⟨.foot, 3⟩, false⟩], nextGen := 8
    sectors := [(62, ⟨.opened, 0, 0, 332⟩), (63, ⟨.full, 32, 4064, 4096⟩)] })

/-- Of every write: what the statement asks of the store before it looks at a step. -/
def writingOk (op : StoreOp) (w : Writer) (rest : List (Nat × List Byte)) (s : State) : Bool :=
  decide (s.pst.scanning = false ∧ s.pst.reads = [] ∧ s.pst.suspended = none ∧ s.pst.reclaim = none ∧ 3 < erasedCount s.pst ∧
    s.pst.queue = [⟨op, some ⟨.foot, 3⟩, false⟩] ∧ s.pst.job = some (.writing w rest false))

/-- The ends of the writes: the last step of a SAVE whose buffer is named or not, in FADING and not, of a SAVE_RECORD, and of GLOBALS with
BINDINGS to follow; the steps that fail, and the kill step; a failed marker of a DELETE. -/
theorem witness_StoreWritesComplete :
    let body := List.replicate 300 (0 : Byte)
    let base := 4096 * 62 + 0
    let old := FlashOp.program (4096 * (ent 32).sector + (ent 32).off) [0xF8]
    (∀ op ∈ [StoreOp.save 255 1 [], .saveRecord 255 []], ∀ saving ∈ [false, true], ∀ u ∈ [RcuState.idle, .fading],
      let s := writing op 255 body (.supersede (ent 32)) old []
      let s : State := { s with tne := { s.tne with bufB := { state := .active, saving := saving } }, rcu := { state := u } }
      writingOk op ⟨255, body, 62, 0, 7, .supersede (ent 32)⟩ [] s ∧ s.pst.op = some old ∧ (buf s .b).saving = saving ∧
      s.rcu.state = u ∧ activeBuf s = some .b) ∧
    (let s := writing (.save 0 0 []) 0 body .valid (.program base [0xFC]) []
     writingOk (.save 0 0 []) ⟨0, body, 62, 0, 7, .valid⟩ [] s ∧ entry s.pst 0 = none ∧ s.pst.op = some (.program base [0xFC])) ∧
    (let s := writing .saveSettings 256 body .valid (.program base [0xFC]) [(257, List.replicate 768 0)]
     writingOk .saveSettings ⟨256, body, 62, 0, 7, .valid⟩ [(257, List.replicate 768 0)] s ∧ entry s.pst 256 = none ∧
     s.pst.op = some (.program base [0xFC]) ∧ SectorsOk s.pst ∧ openSector s.pst = some (62, ⟨.opened, 0, 0, 332⟩) ∧
     332 + 16 + (List.replicate 768 (0 : Byte)).length ≤ 4096) ∧
    (let s := writing (.setLock 1 6 1 1) 256 [1, 6, 1, 1, 9] .valid (.program base [0xFC]) []
     writingOk (.setLock 1 6 1 1) ⟨256, [1, 6, 1, 1, 9], 62, 0, 7, .valid⟩ [] s ∧ ∃ t, exec (.programStepComplete true) s = .next t) ∧
    (∀ x ∈ [(WriteStep.body 256, FlashOp.program (base + 16 + 256) ((body.drop 256).take 256)), (.valid, .program base [0xFC]),
        (.kill, .program base [0xF8]), (.supersede (ent 32), old)],
      let s := writing (.save 9 0 []) 9 body x.1 x.2 []
      writingOk (.save 9 0 []) ⟨9, body, 62, 0, 7, x.1⟩ [] s ∧ s.pst.op = some x.2) ∧
    (let s := writing (.delete 255) 255 body .valid old []
     let s : State := { s with pst := { s.pst with job := some (.deleting 255 (ent 32)) } }
     s.pst.queue = [⟨.delete 255, some ⟨.foot, 3⟩, false⟩] ∧ s.pst.job = some (.deleting 255 (ent 32)) ∧ s.pst.op = some old ∧
     3 < erasedCount s.pst) := by
  unfold SectorsOk Mem.Wf
  refine ⟨by decide +kernel, by decide +kernel, by decide +kernel, ⟨by decide +kernel, _, rfl⟩, by decide +kernel, by decide +kernel⟩

/-- The sector table given, with a SAVE_RECORD at the front of the queue, held back or not, and one record of 64 bytes live in sector 2. -/
def placing (secs : Mem Sector) (image : List Byte) (held : Bool) : State :=
  { r0 with pst := {
      scanning := false, sectors := secs, queue := [⟨.saveRecord 0 image, none, held⟩], nextGen := 8, dir := [(1, some ⟨2, 0, 3, 64⟩)] } }

/-- So many FULL sectors with 3,100 bytes of live records, after those given. -/
def crowded (n : Nat) (l : Mem Sector) : Mem Sector := l ++ (List.range n).map (fun k => (64 - n + k, ⟨.full, 3100, 996, 4096⟩))

/-- A record that does not fit the OPEN sector, or finds none, with two sectors ERASED; with one, with a sector that can be emptied and with none, and
with too few generations; a DELETE that leaves the queue then; and an erase that is over with a request held back. -/
theorem witness_StoreRequestsPlace :
    let image := presetImage { slots := [{ kind := .level, params := [0], run := [0] }] } []
    let op : Sector := ⟨.opened, 7, 8, 4090⟩
    let dead : Sector := ⟨.full, 64, 4032, 4096⟩
    (∀ n ∈ [60, 61], ∀ o ∈ [true, false],
      let s := placing (crowded n ((if o then [(1, op)] else [(1, dead)]) ++ [(2, dead)])) image false
      s.pst.scanning = false ∧ s.pst.reads = [] ∧ s.pst.suspended = none ∧ s.pst.job = none ∧ SectorsOk s.pst ∧ s.pst.op = none ∧
      s.pst.reclaim = none ∧ s.pst.queue = ⟨.saveRecord 0 image, none, false⟩ :: [] ∧ s.pst.lock.holds 0 = false ∧
      liveBytes s.pst + (16 + image.length) ≤ 196608 ∧ openSector s.pst = (if o then some (1, op) else none) ∧
      4096 < 4090 + (16 + image.length) ∧ (2 ≤ erasedCount s.pst ↔ n = 60) ∧ s.pst.nextGen + (liveOf s.pst 2).length ≤ 16777215 ∧
      (sector s.pst 2).state = .full ∧ 0 < erasedCount s.pst ∧
      ∀ k < 64, (sector s.pst k).dead < (sector s.pst 2).dead ∨ (sector s.pst k).dead = (sector s.pst 2).dead ∧ (o = true → k = 2)) ∧
    (parsePreset true image).isSome = true ∧
    (let s := placing (crowded 63 [(0, op)]) image false
     erasedCount s.pst = 0 ∧ openSector s.pst = some (0, op) ∧ SectorsOk s.pst ∧ liveBytes s.pst + (16 + image.length) ≤ 196608 ∧
     ∀ k < 64, (sector s.pst k).state = .full → (sector s.pst k).live = 3100 ∧ ¬(sector s.pst k).live + op.next ≤ 4096) ∧
    (∀ n ∈ [60, 61], let s := placing (crowded n [(1, op), (2, dead)]) image false
     let s : State := { s with pst := { s.pst with queue := [⟨.delete 7, none, false⟩] } }
     s.pst.queue = [⟨.delete 7, none, false⟩] ∧ entry s.pst 7 = none ∧ erasedCount s.pst ≤ 2 ∧ SectorsOk s.pst) ∧
    (let s := placing (crowded 60 [(1, op), (2, ⟨.reclaim, 0, 4096, 4096⟩)]) image true
     let s : State := { s with pst := { s.pst with op := some (.erase 2), reclaim := some ⟨2, none⟩ } }
     s.pst.op = some (.erase 2) ∧ s.pst.reclaim = some ⟨2, none⟩ ∧ s.pst.queue = [⟨.saveRecord 0 image, none, true⟩] ∧
     (sector s.pst 2).state = .reclaim ∧ 0 < erasedCount s.pst ∧ SectorsOk s.pst) := by
  unfold SectorsOk Mem.Wf
  refine ⟨by decide +kernel, by decide +kernel, by decide +kernel, by decide +kernel, by decide +kernel⟩

/-- A scan that finds what is listed in flash. -/
def scanning (bytes : List Byte) : State := { r0 with pst := { flash := Mem.setMany 0xFF [] 0 bytes } }

theorem witness_ScanOfBlankFlash :
    (r0.pst.scanning = true ∧ r0.pst.flash = [] ∧ r0.pst.queue = [] ∧ r0.pst.reclaim = none ∧ r0.rcu.bootDue = true) ∧
    stored.pst.scanning = false ∧
    (∀ key ∈ [0, 255, 256, 257],
      let s := scanning ([0xFC] ++ keyBytes key ++ bytes24 16777214 ++ bytes16 32 ++ List.replicate 24 0)
      s.pst.scanning = true ∧ s.pst.queue = [] ∧ s.pst.reclaim = none ∧ s.rcu.bootDue = true ∧ key ≤ 257 ∧ s.pst.op = none ∧
      s.pst.reads = [] ∧ flashBytes s.pst.flash 0 8 = [0xFC] ++ keyBytes key ++ bytes24 16777214 ++ bytes16 32 ∧
      (∀ e ∈ s.pst.flash, e.1 < 32)) ∧
    (let s := scanning ([0xFC] ++ keyBytes 255 ++ bytes24 1 ++ bytes16 32 ++ List.replicate 24 0 ++
       [0xFC] ++ keyBytes 255 ++ bytes24 16777214 ++ bytes16 36 ++ List.replicate 28 0)
     flashBytes s.pst.flash 0 8 = [0xFC] ++ keyBytes 255 ++ bytes24 1 ++ bytes16 32 ∧
     flashBytes s.pst.flash 32 8 = [0xFC] ++ keyBytes 255 ++ bytes24 16777214 ++ bytes16 36 ∧ (∀ e ∈ s.pst.flash, e.1 < 32 + 36)) := by
  decide +kernel

/-- A record's bytes: its header with a marker, and a body of zeros. -/
def recordBytes (marker : Byte) (key gen len : Nat) : List Byte :=
  [marker] ++ keyBytes key ++ bytes24 gen ++ bytes16 len ++ List.replicate (len - 8) 0

/-- A flash that holds one dead record, with its marker, kind and number. -/
def deadRecord (marker kind number : Byte) : Bool :=
  let v := scanning ([marker, kind, number] ++ bytes24 16777214 ++ bytes16 32 ++ List.replicate 24 0)
  decide (v.pst.scanning = true ∧ v.pst.queue = [] ∧ v.pst.reclaim = none ∧ v.rcu.bootDue = true ∧
    flashBytes v.pst.flash 0 8 = [marker, kind, number] ++ bytes24 16777214 ++ bytes16 32 ∧ (∀ e ∈ v.pst.flash, e.1 < 32) ∧ marker ≠ 0xFF ∧
    (marker ≠ 0xFC ∨ kind = 0 ∨ 3 < kind.toNat ∨ kind ≠ 1 ∧ number ≠ 0))

/-- Dead records of each form, a good record before a bad length and before a byte that is not erased, one in each of two sectors, and two of one
preset. -/
theorem witness_ScanResolvesRecords :
    (deadRecord 0xFE 1 5 ∧ deadRecord 0xFC 0 0 ∧ deadRecord 0xFC 4 0 ∧ deadRecord 0xFC 2 1 ∧ deadRecord 0xFC 3 255 ∧ deadRecord 0xF8 1 1) ∧
    (∀ x ∈ [[(0xFC : Byte), 1, 9, 0, 0, 9, 0, 28], [0xF8, 1, 9, 0, 0, 9, 4, 4], [0xFF, 0xFF, 0xFF, 0xFF, 0xFF, 0xFF, 0xFF, 0xFF, 0]],
      let v := scanning (recordBytes 0xFC 255 1 32 ++ x)
      flashBytes v.pst.flash 0 8 = [0xFC] ++ keyBytes 255 ++ bytes24 1 ++ bytes16 32 ∧ (∀ e ∈ v.pst.flash, e.1 < 4096) ∧
      (let n := 256 * (Mem.get 0xFF v.pst.flash (32 + 6)).toNat + (Mem.get 0xFF v.pst.flash (32 + 7)).toNat
       ¬(32 ≤ n ∧ n ≤ 1024 ∧ n % 4 = 0)) ∧
      (List.range 41).any (fun a => decide (32 ≤ a ∧ Mem.get 0xFF v.pst.flash a ≠ 0xFF)) = true) ∧
    (∀ g ∈ [(1, 2), (2, 1)],
      let flash := Mem.setMany 0xFF (Mem.setMany 0xFF [] 0 (recordBytes 0xFC 1 g.1 32)) 4096 (recordBytes 0xFC 255 g.2 36)
      let v : State := { r0 with pst := { flash := flash } }
      flashBytes v.pst.flash 0 8 = [0xFC] ++ keyBytes 1 ++ bytes24 g.1 ++ bytes16 32 ∧
      flashBytes v.pst.flash 4096 8 = [0xFC] ++ keyBytes 255 ++ bytes24 g.2 ++ bytes16 36 ∧
      ∀ e ∈ v.pst.flash, e.1 < 32 ∨ 4096 ≤ e.1 ∧ e.1 < 4096 + 36) ∧
    (let v := scanning (recordBytes 0xFC 255 1 32 ++ recordBytes 0xFC 255 16777214 36)
     flashBytes v.pst.flash 0 8 = [0xFC] ++ keyBytes 255 ++ bytes24 1 ++ bytes16 32 ∧
     flashBytes v.pst.flash 32 8 = [0xFC] ++ keyBytes 255 ++ bytes24 16777214 ++ bytes16 36 ∧ (∀ e ∈ v.pst.flash, e.1 < 32 + 36)) := by
  refine ⟨by decide +kernel, by decide +kernel, by decide +kernel, by decide +kernel⟩

/-- Reads beside the flash's other work: an erase in progress, a program step, another read; a read that is over with a read that waits, and with an
erase suspended. -/
theorem witness_ReadAndListPresets_busy :
    (∀ op ∈ [FlashOp.erase 5, .program 0 [0], .read .copy ⟨0, 0, 1, 52⟩],
      let s : State := { stored with pst := { stored.pst with op := some op } }
      Room .main s ∧ s.pst.scanning = false ∧ s.pst.op = some op ∧ s.pst.reads = [] ∧ s.pst.suspended = none ∧
      entry s.pst 255 = some ⟨0, 0, 1, 52⟩ ∧ entry s.pst 254 = none) ∧
    (∀ reads ∈ [([] : List ReadReq), [⟨.link ⟨.foot, 3⟩, 255⟩]],
      let s : State := { stored with pst := { stored.pst with
        op := some (.read (.link ⟨.main, 0⟩) ⟨0, 0, 1, 52⟩), suspended := some 5, reads := reads } }
      s.pst.op = some (.read (.link ⟨.main, 0⟩) ⟨0, 0, 1, 52⟩) ∧ s.pst.reads = reads ∧ s.pst.suspended = some 5 ∧
      entry s.pst 255 = some ⟨0, 0, 1, 52⟩) := by unfold Room; decide +kernel

theorem witness_ReadAndListPresets :
    Room .main r0 ∧ Room .main stored ∧ 255 < 256 * (1 : Byte).toNat + (0 : Byte).toNat ∧ 256 * (0 : Byte).toNat + (255 : Byte).toNat ≤ 255 ∧
    r0.pst.scanning = true ∧ (stored.pst.scanning = false ∧ stored.pst.op = none ∧ stored.pst.reads = [] ∧ stored.pst.suspended = none ∧
      stored.pst.job = none ∧ stored.pst.reclaim = none ∧ entry stored.pst 255 = some ⟨0, 0, 1, 52⟩ ∧ entry stored.pst 254 = none) ∧
    0 < min 64 (256 - (255 : Byte).toNat) := by unfold Room; decide +kernel

theorem witness_SetGlobalWritesFields :
    Room .main r0 ∧ MayEdit .main r0 ∧ (2 < (3 : Byte).toNat ∧ (2 : Byte).toNat ≤ 2 ∧ 1 < (2 : Byte).toNat ∧ (1 : Byte).toNat ≤ 1) ∧
    (16 < (17 : Byte).toNat ∧ (16 : Byte).toNat ≤ 16) ∧ r0.lkc.sampleMode = false ∧
    (r0.tmp.midiSource = false ∧ r0.tmp.follower.state ≠ .locked) ∧
    ((200 ≤ 256 * (0 : Byte).toNat + (200 : Byte).toNat) ∧ (256 * (7 : Byte).toNat + (208 : Byte).toNat ≤ 2000)) := by
  unfold Room MayEdit; decide

end Sys2Proof.Tests
end

/-! The gain product of R18: its rounding, its saturation, and what a gain of unity or less does. -/

namespace Sys2Proof.Machine

/-- A saturation makes a clip event exactly where it changes the value (R17). -/
theorem satClip_clip_iff (x : Int) : (satClip x).clip = true ↔ (satClip x).y ≠ x := by
  simp [satClip]

/-- The quotient of the gain product is the nearest integer to `x / 8192`, and the greater of the two at a half (R18). -/
theorem gainQuotient_nearest (x : Int) :
    2 * x < 8192 * (2 * ((x + 4096) / 8192) + 1) ∧ 8192 * (2 * ((x + 4096) / 8192) - 1) ≤ 2 * x := by
  omega

/-- At a gain of unity or less the exact product lies between 0 and `s` at unity, so the rounded one lies between 0 and `s` (R18). -/
theorem gainQuotient_between (s g : Int) (hg : 0 ≤ g) (hu : g ≤ 8192) :
    min 0 s ≤ (s * g + 4096) / 8192 ∧ (s * g + 4096) / 8192 ≤ max 0 s := by
  rcases le_total 0 s with hs | hs
  · have hlo : 0 ≤ s * g := mul_nonneg hs hg
    have hhi : s * g ≤ s * 8192 := mul_le_mul_of_nonneg_left hu hs
    omega
  · have hhi : s * g ≤ 0 := mul_nonpos_of_nonpos_of_nonneg hs hg
    have hlo : s * 8192 ≤ s * g := mul_le_mul_of_nonpos_left hu hs
    omega

/-- At a gain of unity or less the gain product of a sample is the rounded quotient, with no clip event (R18). -/
theorem gainProduct_of_le_unity (s g : Int) (hlo : -8388608 ≤ s) (hhi : s ≤ 8388607) (hg : 0 ≤ g) (hu : g ≤ 8192) :
    gainProduct s g = ⟨(s * g + 4096) / 8192, false⟩ := by
  obtain ⟨hmin, hmax⟩ := gainQuotient_between s g hg hu
  exact satClip_in_range _ (by omega) (by omega)

/-- The gain product of a sample at unity is the sample (R18). -/
theorem gainProduct_unity (s : Int) (hlo : -8388608 ≤ s) (hhi : s ≤ 8388607) : gainProduct s 8192 = ⟨s, false⟩ := by
  have hround : (s * 8192 + 4096) / 8192 = s := by omega
  rw [gainProduct_of_le_unity s 8192 hlo hhi (by decide) (by decide), hround]

/-- The gain product at gain 0 is 0 (R18). -/
theorem gainProduct_zero (s : Int) : gainProduct s 0 = ⟨0, false⟩ := by
  rw [gainProduct, mul_zero]; rfl

/-- The gain product at a gain of unity or less is no larger than the sample (R18). -/
theorem gainProduct_natAbs_le (s g : Int) (hlo : -8388608 ≤ s) (hhi : s ≤ 8388607) (hg : 0 ≤ g) (hu : g ≤ 8192) :
    (gainProduct s g).y.natAbs ≤ s.natAbs := by
  obtain ⟨hmin, hmax⟩ := gainQuotient_between s g hg hu
  rw [gainProduct_of_le_unity s g hlo hhi hg hu]
  dsimp only
  omega

/-- Settles O19: rounding and saturation from the definition, the rest from what a gain of unity or less does. -/
theorem gainProductRule : Obligations.GainProductRule := by
  unfold Obligations.GainProductRule
  intro s g hlo hhi hg _ p out
  have hnoclip (hu : g ≤ 8192) : out.clip = false := by
    simp only [out, gainProduct_of_le_unity s g hlo hhi hg hu]
  refine ⟨gainQuotient_nearest (s * g), rfl, satClip_clip_iff p, ?unity, ?zero, ?small, ?clips⟩
  case unity => rintro rfl; exact gainProduct_unity s hlo hhi
  case zero => rintro rfl; exact gainProduct_zero s
  case small => exact fun hu => ⟨gainProduct_natAbs_le s g hlo hhi hg hu, hnoclip hu⟩
  case clips =>
    intro hclip
    by_contra hle
    simp [hnoclip (not_lt.mp hle)] at hclip

end Sys2Proof.Machine

/-! The tuner's note table and lock machine: the nearest note, the span's result, and what a result does in each lock state. -/

namespace Sys2Proof.Machine

/-! ### The nearest note and the span's result (R81, R86, R87) -/

/-- The last of the places below `n` at which `d` is least. -/
def IsLastMin (d : Nat → Nat) (n b : Nat) : Prop :=
  b < n ∧ (∀ k, k < n → d b ≤ d k) ∧ (∀ k, k < n → d k = d b → k ≤ b)

/-- A new last place wins where its value is no greater than the least so far: at a tie the later one is taken. -/
theorem IsLastMin.succ {d : Nat → Nat} {n b : Nat} (h : IsLastMin d n b) :
    IsLastMin d (n + 1) (if d n ≤ d b then n else b) := by
  obtain ⟨hlt, hleast, hlast⟩ := h
  split
  next hnew =>
    refine ⟨n.lt_succ_self, fun k hk => ?_, fun k hk _ => Nat.le_of_lt_succ hk⟩
    rcases Nat.lt_succ_iff_lt_or_eq.mp hk with hk | rfl
    · exact hnew.trans (hleast k hk)
    · exact le_rfl
  next hold =>
    refine ⟨hlt.trans n.lt_succ_self, fun k hk => ?_, fun k hk heq => ?_⟩ <;>
      rcases Nat.lt_succ_iff_lt_or_eq.mp hk with hk | rfl
    · exact hleast k hk
    · exact (not_le.mp hold).le
    · exact hlast k hk heq
    · exact absurd heq.le hold

/-- Taking each later place that is no farther than the best so far ends at the last least place. -/
theorem foldl_range_isLastMin (d : Nat → Nat) (n : Nat) :
    IsLastMin d (n + 1) ((List.range (n + 1)).foldl (fun best k => if d k ≤ d best then k else best) 0) := by
  induction n with
  | zero => simp [IsLastMin]
  | succ n ih =>
    rw [List.range_succ, List.foldl_append]
    exact ih.succ

/-- The nearest note is the last, so the highest, of those at the least distance (R87). -/
theorem nearestNote_isLastMin (ref : Nat) (span : Int) : IsLastMin (noteDistance ref span) 72 (nearestNote ref span) :=
  foldl_range_isLastMin (noteDistance ref span) 71

/-- Clamping is taking the lesser with the upper bound and the greater with the lower. -/
theorem clampInt_eq_max_min {lo hi : Int} (h : lo ≤ hi) (x : Int) : clampInt lo hi x = max lo (min hi x) := by
  unfold clampInt
  omega

/-- The result of a valid span (R81). -/
theorem spanResult_valid (ref : Nat) {span : Int} (hlo : 4096 ≤ span) (hhi : span ≤ 204800) :
    spanResult ref span = some (nearestNote ref span, centsOf ref span (nearestNote ref span)) := by
  simp [spanResult, spanValid, hlo, hhi]

/-- A span out of range is a miss (R81). -/
theorem spanResult_invalid (ref : Nat) {span : Int} (h : span < 4096 ∨ 204800 < span) : spanResult ref span = none := by
  have hinvalid : ¬(4096 ≤ span ∧ span ≤ 204800) := by omega
  simp [spanResult, spanValid, hinvalid]

/-- The span of a note is that of its ratio, brought from octave 4 to its own octave (R86). -/
theorem noteSpan_of_ratio (ref : Nat) {octave n ratio : Nat} (ho : 1 ≤ octave) (hn : noteRatio[n]? = some ratio) :
    noteSpan ref (12 * (octave - 1) + n) =
      if octave ≤ 4 then 61440000 / ref * ratio / 65536 * 2 ^ (4 - octave)
      else 61440000 / ref * ratio / 65536 / 2 ^ (octave - 4) := by
  have hlt : n < 12 := (List.getElem?_eq_some_iff.mp hn).1
  have hnote : (12 * (octave - 1) + n) % 12 = n := by omega
  have hoctave : (12 * (octave - 1) + n) / 12 + 1 = octave := by omega
  simp only [noteSpan, hnote, hoctave, List.getD_eq_getElem?_getD, hn, Option.getD_some]

/-! ### The lock machine (R88, R89, R90) -/

/-- A valid result of the same note within 25 cents is a HIT (R89, R90). -/
theorem isHit_of_near {note : Nat} {c p : Int} (h : (c - p).natAbs ≤ 25) : isHit note p (some (note, c)) = true := by
  simp [isHit, h]

/-- A miss, another note, or the same note more than 25 cents off is no HIT (R89, R90). -/
theorem isHit_of_far {note : Nat} {p : Int} {r : Option (Nat × Int)}
    (h : ∀ c : Int, r = some (note, c) → 25 < (c - p).natAbs) : isHit note p r = false := by
  rcases r with _ | ⟨n, c⟩
  · rfl
  · refine decide_eq_false fun ⟨hn, hc⟩ => ?_
    exact absurd (h c (by rw [hn])) (not_lt.mpr hc)

/-- A HIT moves the shown cents a quarter of the way (R90). -/
theorem shownAfter_of_near {note : Nat} {c p : Int} (h : (c - p).natAbs ≤ 25) :
    shownAfter note p (some (note, c)) = (3 * p + c + 2) / 4 := by
  simp [shownAfter, isHit_of_near h]

/-- What is no HIT leaves the shown cents (R90). -/
theorem shownAfter_of_not_hit {note : Nat} {p : Int} {r : Option (Nat × Int)} (h : isHit note p r = false) :
    shownAfter note p r = p := by
  rcases r with _ | ⟨n, c⟩
  · rfl
  · simp [shownAfter, h]

/-- In ACQUIRE a HIT counts, and the third locks with an empty window (R89). -/
theorem lockStep_acquire_near (w : Nat) {note k : Nat} {c p : Int} (h : (c - p).natAbs ≤ 25) :
    lockStep w (some (note, c)) (.acquire note k p) = if k = 2 then .locked note c [] else .acquire note (k + 1) c := by
  simp [lockStep, isHit_of_near h]

/-- In ACQUIRE a valid result that is no HIT starts anew with its own note (R89). -/
theorem lockStep_acquire_far (w : Nat) {n note k : Nat} {c p : Int} (h : n ≠ note ∨ 25 < (c - p).natAbs) :
    lockStep w (some (n, c)) (.acquire note k p) = .acquire n 1 c := by
  have hmiss : isHit note p (some (n, c)) = false :=
    isHit_of_far fun c' heq => by
      cases heq
      exact h.resolve_left (· rfl)
  simp [lockStep, hmiss]

/-- LOCKED with W = 0: the lock holds with an empty window (R90). -/
theorem lockStep_locked_zero (r : Option (Nat × Int)) (note : Nat) (p : Int) (win : List Bool) :
    lockStep 0 r (.locked note p win) = .locked note (shownAfter note p r) [] := rfl

/-- LOCKED with a window: the result goes into it and the lock is lost where two of the entries kept are no HIT (R90). -/
theorem lockStep_locked_pos {w : Nat} (hw : 0 < w) (r : Option (Nat × Int)) (note : Nat) (p : Int) (win : List Bool) :
    lockStep w r (.locked note p win) =
      if 2 ≤ (trimWindow w (win ++ [isHit note p r])).count false then .search
      else .locked note (shownAfter note p r) (trimWindow w (win ++ [isHit note p r])) := by
  simp [lockStep, hw.ne']

/-- A window that is not over its length loses nothing. -/
theorem trimWindow_of_length_le {w : Nat} {win : List Bool} (h : win.length ≤ w) : trimWindow w win = win := by
  simp [trimWindow, Nat.sub_eq_zero_of_le h]

/-- A HIT in LOCKED with a window (R90). -/
theorem lockStep_locked_near {w : Nat} (hw : 0 < w) {note : Nat} {c p : Int} (h : (c - p).natAbs ≤ 25) (win : List Bool) :
    lockStep w (some (note, c)) (.locked note p win) =
      if 2 ≤ (trimWindow w (win ++ [true])).count false then .search
      else .locked note ((3 * p + c + 2) / 4) (trimWindow w (win ++ [true])) := by
  rw [lockStep_locked_pos hw, isHit_of_near h, shownAfter_of_near h]

/-- A result that is no HIT in LOCKED with a window, be it a miss or too far off (R90). -/
theorem lockStep_locked_far {w : Nat} (hw : 0 < w) {r : Option (Nat × Int)} {note : Nat} {p : Int}
    (h : ∀ c : Int, r = some (note, c) → 25 < (c - p).natAbs) (win : List Bool) :
    lockStep w r (.locked note p win) =
      if 2 ≤ (trimWindow w (win ++ [false])).count false then .search
      else .locked note p (trimWindow w (win ++ [false])) := by
  rw [lockStep_locked_pos hw, isHit_of_far h, shownAfter_of_not_hit (isHit_of_far h)]

/-- A HIT that the window has room for keeps the lock while at most one entry is no HIT (R90). -/
theorem lockStep_locked_near_room {w : Nat} (hw : 0 < w) {note : Nat} {c p : Int} (h : (c - p).natAbs ≤ 25) {win : List Bool}
    (hroom : (win ++ [true]).length ≤ w) (hcount : win.count false ≤ 1) :
    lockStep w (some (note, c)) (.locked note p win) = .locked note ((3 * p + c + 2) / 4) (win ++ [true]) := by
  have hkeep : ¬2 ≤ (win ++ [true]).count false := by simp; omega
  rw [lockStep_locked_near hw h, trimWindow_of_length_le hroom, if_neg hkeep]

/-- A miss that the window has room for: the lock is lost where an entry was no HIT before it (R90). -/
theorem lockStep_locked_miss_room {w : Nat} (hw : 0 < w) (note : Nat) (p : Int) {win : List Bool}
    (hroom : (win ++ [false]).length ≤ w) :
    lockStep w none (.locked note p win) = if 1 ≤ win.count false then .search else .locked note p (win ++ [false]) := by
  rw [lockStep_locked_far (r := none) hw nofun, trimWindow_of_length_le hroom]
  simp

/-- Settles O39: the nearest note is the last least distance of the table, and each row of the lock machine's table is one of its equations. -/
theorem spansAndLockMachine : Obligations.SpansAndLockMachine := by
  unfold Obligations.SpansAndLockMachine
  refine ⟨?valid, fun ref span => spanResult_invalid ref, ?lock, fun ref octave n ratio ho _ hn => noteSpan_of_ratio ref ho hn⟩
  case valid =>
    intro ref span hlo hhi
    obtain ⟨hlt, hleast, hlast⟩ := nearestNote_isLastMin ref span
    exact ⟨_, _, spanResult_valid ref hlo hhi, hlt, hleast, hlast, clampInt_eq_max_min (by decide) _⟩
  case lock =>
    intro w
    refine ⟨rfl, fun _ _ _ => rfl, fun _ _ => rfl, fun _ _ _ _ _ => lockStep_acquire_far w, ?acquireHit, ?acquireThird,
      fun _ _ _ _ hw hc => lockStep_locked_near_room hw hc, ?missRoom, fun _ _ _ win hw hc => lockStep_locked_near hw hc win,
      fun _ _ _ win hw hr => lockStep_locked_far hw hr win, ?zeroHit, ?zeroFar⟩
    case acquireHit =>
      intro note k c p hc hk
      rw [lockStep_acquire_near w hc, if_neg hk]
    case acquireThird =>
      intro note c p hc
      rw [lockStep_acquire_near w hc, if_pos rfl]
    case missRoom =>
      intro note p win hw hroom
      rw [lockStep_locked_miss_room hw note p hroom]
      exact ⟨fun hnone => by simp [hnone], fun hone => by simp [hone]⟩
    case zeroHit =>
      intro note c p win hc
      rw [lockStep_locked_zero, shownAfter_of_near hc]
    case zeroFar =>
      intro r note p win hr
      rw [lockStep_locked_zero, shownAfter_of_not_hit (isHit_of_far hr)]

end Sys2Proof.Machine
